-- ==== Sys2Proof/Word.lean ====
section
/-! DEFINITION. Sys2Proof/Word.lean: the widths DESCORE fixes (spec/00_scope.md R6), one name each. -/

namespace Sys2Proof

/-- A key, a block or the data of one bus access: 64 bits (R6, R54). -/
abbrev Word64 := BitVec 64

/-- A half-block, `L` or `R`: 32 bits (R6). -/
abbrev Half := BitVec 32

/-- A key-schedule half, `C` or `D`: 28 bits (R6). -/
abbrev KeyHalf := BitVec 28

/-- A round key: 48 bits (R6, R35). -/
abbrev RoundKey := BitVec 48

/-- A byte offset in the register window: 6 bits (R6, R50). -/
abbrev Offset := BitVec 6

/-- A bus-operation word `BOW[70:0]` (spec/30_encoding.md R70). -/
abbrev BusWord := BitVec 71

/-- The round-key file `RK[0..15]` (spec/10_state.md R35). -/
abbrev RoundKeyFile := Vector RoundKey 16

end Sys2Proof
end

