-- ==== Sys2Proof/Config.lean ====
section
/-! DEFINITION. Sys2Proof/Config.lean: the parameters of spec/00_scope.md R6 and the table record of
spec/40_tables.md R101, as types; their DESCORE values stand in Machine/Tables.lean. -/

namespace Sys2Proof

/-- The table record `TABLES` of R101. A permutation table lists 1-based source positions in output order
(R100); an S-box lists its four rows of sixteen values (R112); `shifts` lists the rotation amounts (R123). -/
structure Tables where
  ip     : List Nat
  fp     : List Nat
  pc1c   : List Nat
  pc1d   : List Nat
  pc2    : List Nat
  e      : List Nat
  p      : List Nat
  sboxes : List (List (List Nat))
  shifts : List Nat
  deriving DecidableEq, Repr

/-- The named parameters of R6 that the machine's behaviour could depend on. `tKs` and `tXf` bound timing only:
no rule of the model reads them (R236). -/
structure Params where
  checkKeyParity : Bool
  tKs            : Nat
  tXf            : Nat
  tables         : Tables
  deriving DecidableEq, Repr

/-- R100: a table of `m` entries over an `n`-bit source, every entry from 1 to `n`. -/
abbrev permutationFits (t : List Nat) (m n : Nat) : Prop :=
  t.length = m ∧ ∀ p ∈ t, 1 ≤ p ∧ p ≤ n

/-- R101: eight boxes of four rows of sixteen values 0..15. -/
abbrev sboxesFit (boxes : List (List (List Nat))) : Prop :=
  boxes.length = 8 ∧ ∀ box ∈ boxes, box.length = 4 ∧ ∀ row ∈ box, row.length = 16 ∧ ∀ v ∈ row, v < 16

/-- The shape R101 gives the table record. -/
abbrev Tables.Shaped (t : Tables) : Prop :=
  permutationFits t.ip 64 64 ∧ permutationFits t.fp 64 64 ∧
  permutationFits t.pc1c 28 64 ∧ permutationFits t.pc1d 28 64 ∧ permutationFits t.pc2 48 56 ∧
  permutationFits t.e 48 32 ∧ permutationFits t.p 32 32 ∧
  sboxesFit t.sboxes ∧ t.shifts.length = 16 ∧ ∀ n ∈ t.shifts, n = 1 ∨ n = 2

/-- R6: the latencies are integers of at least 1, and the tables have the shape of R101. -/
abbrev Params.Shaped (p : Params) : Prop :=
  1 ≤ p.tKs ∧ 1 ≤ p.tXf ∧ p.tables.Shaped

/-- `DESCORE_BASE` (spec/20_memory.md R51): where the platform puts the window in the host's address space. The
spec gives no value, so none can be proved of it. -/
opaque Config.descoreBase : Nat

end Sys2Proof
end

