-- ==== Sys2Proof/Machine/Bits.lean ====
section
/-! DEFINITION. Sys2Proof/Machine/Bits.lean: the operators of spec/00_scope.md R8 and the table look-ups of
spec/40_tables.md R100, R112 and R113. -/

namespace Sys2Proof.Machine

/-- R100: output DES index `i` is source DES index `T[i] - 1`. A DES index counts from the most significant bit (R7),
which is what `getMsbD` does; the output grows from its most significant end. -/
def permute {n : Nat} (m : Nat) (t : List Nat) (v : BitVec n) : BitVec m :=
  t.foldl (fun out p => out.shiftConcat (v.getMsbD (p - 1))) 0#m

/-- R8: cyclic left rotation, `((x << s) | (x >> (n - s))) mod 2^n`. -/
def rotl {n : Nat} (x : BitVec n) (s : Nat) : BitVec n :=
  (x <<< s) ||| (x >>> (n - s))

/-- R112: the row is the first bit then the last bit of the group. -/
def sboxRow (g : BitVec 6) : Nat := (g.extractLsb' 5 1 ++ g.extractLsb' 0 1).toNat

/-- R112: the column is the four inner bits of the group. -/
def sboxColumn (g : BitVec 6) : Nat := (g.extractLsb' 1 4).toNat

/-- R112: one look-up. -/
def sbox (box : List (List Nat)) (g : BitVec 6) : BitVec 4 :=
  BitVec.ofNat 4 ((box.getD (sboxRow g) []).getD (sboxColumn g) 0)

/-- R113: the group of DES indices `6j` to `6j+5` goes through box `S(j+1)`. -/
def sboxGroup (boxes : List (List (List Nat))) (x : BitVec 48) (j : Nat) : BitVec 4 :=
  sbox (boxes.getD j []) (x.extractLsb' (42 - 6 * j) 6)

/-- R113: the eight outputs concatenated in group order. -/
def substitute (boxes : List (List (List Nat))) (x : BitVec 48) : Half :=
  sboxGroup boxes x 0 ++ sboxGroup boxes x 1 ++ sboxGroup boxes x 2 ++ sboxGroup boxes x 3 ++
  sboxGroup boxes x 4 ++ sboxGroup boxes x 5 ++ sboxGroup boxes x 6 ++ sboxGroup boxes x 7

end Sys2Proof.Machine
end

