-- ==== Sys2Proof/Machine/Feistel.lean ====
section
/-! DEFINITION. Sys2Proof/Machine/Feistel.lean: the transform `XF` (spec/42_feistel.md R140 to R147). A pair of halves
is written `(L, R)`. -/

namespace Sys2Proof.Machine

/-- IP and the split into `L_0` and `R_0` (R140). -/
def initialHalves (t : Tables) (block : Word64) : Half × Half :=
  ((permute 64 t.ip block).extractLsb' 32 32, (permute 64 t.ip block).extractLsb' 0 32)

/-- The round function `f(R, K) = P(S(E(R) ^ K))` (R141 to R144). -/
def roundFunction (t : Tables) (r : Half) (k : RoundKey) : Half :=
  permute 32 t.p (substitute t.sboxes (permute 48 t.e r ^^^ k))

/-- One round: `(L, R) <- (R, f(R, K) ^ L)` (R145). -/
def feistelRound (t : Tables) (lr : Half × Half) (k : RoundKey) : Half × Half :=
  (lr.2, roundFunction t lr.2 k ^^^ lr.1)

/-- The rounds, one per key, in the order supplied (R147). -/
def feistelRounds (t : Tables) (lr : Half × Half) (keys : List RoundKey) : Half × Half :=
  keys.foldl (feistelRound t) lr

/-- The output `FP(R ∥ L)` of the halves the last round left (R146). -/
def outputBlock (t : Tables) (lr : Half × Half) : Word64 :=
  permute 64 t.fp (lr.2 ++ lr.1)

/-- `XF`, PYDES's `transform`: a block through the round keys in the order supplied (R147). -/
def transform (t : Tables) (block : Word64) (keys : List RoundKey) : Word64 :=
  outputBlock t (feistelRounds t (initialHalves t block) keys)

end Sys2Proof.Machine
end

