-- ==== Sys2Proof/Machine/KeySchedule.lean ====
section
/-! DEFINITION. Sys2Proof/Machine/KeySchedule.lean: the key-schedule function `KS` (spec/41_key_schedule.md R125) and
the key's parity (R128). -/

namespace Sys2Proof.Machine

/-- PC-1: the two halves `C_0` and `D_0` (R125 step 1). -/
def keyHalvesInitial (t : Tables) (key : Word64) : KeyHalf × KeyHalf :=
  (permute 28 t.pc1c key, permute 28 t.pc1d key)

/-- `SHIFTS[i]` (spec/40_tables.md R123). -/
def shiftOf (t : Tables) (i : Nat) : Nat := t.shifts.getD i 0

/-- The rotation of round `i`: each half by itself (R125 step 2). -/
def rotateHalves (t : Tables) (i : Nat) (cd : KeyHalf × KeyHalf) : KeyHalf × KeyHalf :=
  (rotl cd.1 (shiftOf t i), rotl cd.2 (shiftOf t i))

/-- The running halves after `n` rounds: the state carries across rounds (R125 step 3). -/
def keyHalves (t : Tables) (key : Word64) : Nat → KeyHalf × KeyHalf
  | 0 => keyHalvesInitial t key
  | n + 1 => rotateHalves t n (keyHalves t key n)

/-- PC-2 on `C ∥ D` (R125 step 2). -/
def compressHalves (t : Tables) (cd : KeyHalf × KeyHalf) : RoundKey :=
  permute 48 t.pc2 (cd.1 ++ cd.2)

/-- `KS(key)[i]`: PC-2 after round `i`'s rotation. -/
def roundKeyOf (t : Tables) (key : Word64) (i : Nat) : RoundKey :=
  compressHalves t (keyHalves t key (i + 1))

/-- `KS`, PYDES's `deriveRoundKeys`: sixteen round keys from a key (R125). -/
def deriveRoundKeys (t : Tables) (key : Word64) : RoundKeyFile :=
  Vector.ofFn (fun i : Fin 16 => roundKeyOf t key i.val)

/-- Byte `k` of a key or block, `v[63-8k : 56-8k]` (spec/20_memory.md R53). -/
def byteOf (v : Word64) (k : Nat) : BitVec 8 := v.extractLsb' (56 - 8 * k) 8

/-- Whether the number of 1-bits of a byte is odd (R128). -/
def oddParity (b : BitVec 8) : Bool :=
  (List.range 8).foldl (fun odd i => odd ^^ b.getLsbD i) false

/-- `parity_ok(key)`: every byte has odd parity (R128). -/
def parityOk (key : Word64) : Bool :=
  (List.range 8).all (fun k => oddParity (byteOf key k))

end Sys2Proof.Machine
end

