-- ==== Sys2Proof/Syntax.lean ====
section
/-! DEFINITION. Sys2Proof/Syntax.lean: the operations of spec/opcode_table.json, one constructor a row
(spec/30_encoding.md R80). DESCORE fetches no instructions (R21): an operation is one host bus access (R70). -/

namespace Sys2Proof

/-- The `dir` bit of a bus-operation word (R70). -/
inductive Dir where
  | read
  | write
  deriving DecidableEq, Repr

/-- One bus operation, as a row of spec/opcode_table.json. A read has no operand: its `wdata` is ignored (R70). -/
inductive Instr where
  | ksched
  | encrypt
  | decrypt
  | cmdIllegal (wdata : Word64)
  | rdCmd
  | rdStatus
  | wrStatus (wdata : Word64)
  | rdKey
  | wrKey (wdata : Word64)
  | rdDin
  | wrDin (wdata : Word64)
  | rdDout
  | wrDout (wdata : Word64)
  | rdRkidx
  | wrRkidx (wdata : Word64)
  | rdRkdata
  | wrRkdata (wdata : Word64)
  | rdRsvd38
  | wrRsvd38 (wdata : Word64)
  | buserr (dir : Dir) (addr : Offset) (wdata : Word64)
  deriving DecidableEq, Repr

end Sys2Proof
end

