-- ==== Sys2Proof/WellFormed.lean ====
section
/-! DEFINITION. Sys2Proof/WellFormed.lean: which terms of `Instr` some bus-operation word decodes to. -/

namespace Sys2Proof

/-- R73: the three legal command words. -/
def isCommandWord (wdata : Word64) : Bool :=
  wdata == 1#64 || wdata == 2#64 || wdata == 3#64

/-- R55: an access with `addr[2:0] ≠ 0b000` is misaligned. -/
def isMisaligned (addr : Offset) : Bool :=
  addr.extractLsb' 0 3 != 0#3

/-- A `CMD_ILLEGAL` carries a word that is none of the commands (R74); a `BUSERR` carries a misaligned offset (R80).
Every other operation admits every operand. -/
def Instr.wellFormed : Instr → Bool
  | .cmdIllegal wdata => !isCommandWord wdata
  | .buserr _ addr _ => isMisaligned addr
  | .ksched => true
  | .encrypt => true
  | .decrypt => true
  | .rdCmd => true
  | .rdStatus => true
  | .wrStatus _ => true
  | .rdKey => true
  | .wrKey _ => true
  | .rdDin => true
  | .wrDin _ => true
  | .rdDout => true
  | .wrDout _ => true
  | .rdRkidx => true
  | .wrRkidx _ => true
  | .rdRkdata => true
  | .wrRkdata _ => true
  | .rdRsvd38 => true
  | .wrRsvd38 _ => true

/-- The well-formed operations. -/
abbrev Instr.WellFormed (i : Instr) : Prop := i.wellFormed = true

end Sys2Proof
end

