-- ==== Sys2Proof/Decode.lean ====
section
/-! DEFINITION. Sys2Proof/Decode.lean: the bus-operation word (spec/30_encoding.md R70), the opcode table as the spec
lists it, the decoder (R71) and the encoder. -/

namespace Sys2Proof

/-- R70: `dir` is 1 for a write. -/
def Dir.bit : Dir → BitVec 1
  | .read => 0#1
  | .write => 1#1

/-- R70: `BOW = dir ∥ addr ∥ wdata`. -/
def busWord (dir : Dir) (addr : Offset) (wdata : Word64) : BusWord :=
  (dir.bit ++ addr) ++ wdata

/-- Bit 70 of the word. -/
def dirOf (w : BusWord) : Dir :=
  if w.getLsbD 70 then .write else .read

/-- Bits 69:64 of the word. -/
def addrOf (w : BusWord) : Offset := w.extractLsb' 64 6

/-- Bits 63:0 of the word. -/
def wdataOf (w : BusWord) : Word64 := w.extractLsb' 0 64

/-- One row of spec/opcode_table.json: the bits it looks at, what they must be, and the operation it selects. -/
structure OpcodeRow where
  mask  : BusWord
  value : BusWord
  build : BusWord → Instr

/-- R71: a row matches where `(BOW & mask) = match`. -/
def OpcodeRow.accepts (r : OpcodeRow) (w : BusWord) : Bool :=
  w &&& r.mask == r.value

/-- The mask of a row that fixes all 71 bits. -/
def wholeMask : BusWord := 0x7FFFFFFFFFFFFFFFFF#71

/-- The mask of a row that fixes `dir` and `addr` and leaves `wdata` open. -/
def headMask : BusWord := 0x7F0000000000000000#71

/-- The rows of `CMD` (R80 rows 1 to 5). -/
def commandRows : List OpcodeRow :=
  [ ⟨wholeMask, 0x400000000000000001#71, fun _ => .ksched⟩,
    ⟨wholeMask, 0x400000000000000002#71, fun _ => .encrypt⟩,
    ⟨wholeMask, 0x400000000000000003#71, fun _ => .decrypt⟩,
    ⟨headMask, 0x400000000000000000#71, fun w => .cmdIllegal (wdataOf w)⟩,
    ⟨headMask, 0x000000000000000000#71, fun _ => .rdCmd⟩ ]

/-- The rows of `STATUS`, `KEY`, `DIN` and `DOUT` (R80 rows 6 to 13). -/
def blockRows : List OpcodeRow :=
  [ ⟨headMask, 0x080000000000000000#71, fun _ => .rdStatus⟩,
    ⟨headMask, 0x480000000000000000#71, fun w => .wrStatus (wdataOf w)⟩,
    ⟨headMask, 0x100000000000000000#71, fun _ => .rdKey⟩,
    ⟨headMask, 0x500000000000000000#71, fun w => .wrKey (wdataOf w)⟩,
    ⟨headMask, 0x180000000000000000#71, fun _ => .rdDin⟩,
    ⟨headMask, 0x580000000000000000#71, fun w => .wrDin (wdataOf w)⟩,
    ⟨headMask, 0x200000000000000000#71, fun _ => .rdDout⟩,
    ⟨headMask, 0x600000000000000000#71, fun w => .wrDout (wdataOf w)⟩ ]

/-- The rows of `RKIDX`, `RKDATA` and the reserved slot (R80 rows 14 to 19). -/
def roundKeyRows : List OpcodeRow :=
  [ ⟨headMask, 0x280000000000000000#71, fun _ => .rdRkidx⟩,
    ⟨headMask, 0x680000000000000000#71, fun w => .wrRkidx (wdataOf w)⟩,
    ⟨headMask, 0x300000000000000000#71, fun _ => .rdRkdata⟩,
    ⟨headMask, 0x700000000000000000#71, fun w => .wrRkdata (wdataOf w)⟩,
    ⟨headMask, 0x380000000000000000#71, fun _ => .rdRsvd38⟩,
    ⟨headMask, 0x780000000000000000#71, fun w => .wrRsvd38 (wdataOf w)⟩ ]

/-- Row 20, whose mask is 0: it takes every word the rows before it left (R71). -/
def busErrorRow : OpcodeRow :=
  ⟨0#71, 0#71, fun w => .buserr (dirOf w) (addrOf w) (wdataOf w)⟩

/-- spec/opcode_table.json, in its order. -/
def opcodeTable : List OpcodeRow :=
  commandRows ++ blockRows ++ roundKeyRows ++ [busErrorRow]

/-- The rows tested in order: the first that matches selects the operation (R71). -/
def firstMatch : List OpcodeRow → BusWord → Instr
  | [], w => busErrorRow.build w
  | r :: rows, w => if r.accepts w then r.build w else firstMatch rows w

/-- R71: decoding. The last row matches every word, so it is total and the table never ends without a match. -/
def decode (w : BusWord) : Instr := firstMatch opcodeTable w

/-- Why a number is no bus-operation word. -/
inductive DecodeError where
  /-- It has a bit above bit 70 (R70). -/
  | widerThanBusWord
  deriving DecidableEq, Repr

/-- The decoder on any number: a number of more than 71 bits is rejected by name. -/
def decodeNat (w : Nat) : Except DecodeError Instr :=
  if w < 2 ^ 71 then .ok (decode (BitVec.ofNat 71 w)) else .error .widerThanBusWord

/-- The host's question: the operation this decoder reads from the table's bits `w`, of which the row has `nbits`. -/
def decodeTableWord (nbits w : Nat) : Option Instr :=
  (decodeNat (w % 2 ^ nbits)).toOption

/-- R50: the window's offsets. -/
def offsetCmd : Offset := 0x00#6
def offsetStatus : Offset := 0x08#6
def offsetKey : Offset := 0x10#6
def offsetDin : Offset := 0x18#6
def offsetDout : Offset := 0x20#6
def offsetRkidx : Offset := 0x28#6
def offsetRkdata : Offset := 0x30#6
def offsetRsvd38 : Offset := 0x38#6

/-- The direction of an operation (R80). -/
def Instr.dir : Instr → Dir
  | .ksched => .write
  | .encrypt => .write
  | .decrypt => .write
  | .cmdIllegal _ => .write
  | .rdCmd => .read
  | .rdStatus => .read
  | .wrStatus _ => .write
  | .rdKey => .read
  | .wrKey _ => .write
  | .rdDin => .read
  | .wrDin _ => .write
  | .rdDout => .read
  | .wrDout _ => .write
  | .rdRkidx => .read
  | .wrRkidx _ => .write
  | .rdRkdata => .read
  | .wrRkdata _ => .write
  | .rdRsvd38 => .read
  | .wrRsvd38 _ => .write
  | .buserr dir _ _ => dir

/-- The offset an operation addresses (R80). -/
def Instr.addr : Instr → Offset
  | .ksched => offsetCmd
  | .encrypt => offsetCmd
  | .decrypt => offsetCmd
  | .cmdIllegal _ => offsetCmd
  | .rdCmd => offsetCmd
  | .rdStatus => offsetStatus
  | .wrStatus _ => offsetStatus
  | .rdKey => offsetKey
  | .wrKey _ => offsetKey
  | .rdDin => offsetDin
  | .wrDin _ => offsetDin
  | .rdDout => offsetDout
  | .wrDout _ => offsetDout
  | .rdRkidx => offsetRkidx
  | .wrRkidx _ => offsetRkidx
  | .rdRkdata => offsetRkdata
  | .wrRkdata _ => offsetRkdata
  | .rdRsvd38 => offsetRsvd38
  | .wrRsvd38 _ => offsetRsvd38
  | .buserr _ addr _ => addr

/-- The data an operation carries: a command word (R73), the write data, or 0 for an aligned read (R70). -/
def Instr.wdata : Instr → Word64
  | .ksched => 1#64
  | .encrypt => 2#64
  | .decrypt => 3#64
  | .cmdIllegal wdata => wdata
  | .rdCmd => 0#64
  | .rdStatus => 0#64
  | .wrStatus wdata => wdata
  | .rdKey => 0#64
  | .wrKey wdata => wdata
  | .rdDin => 0#64
  | .wrDin wdata => wdata
  | .rdDout => 0#64
  | .wrDout wdata => wdata
  | .rdRkidx => 0#64
  | .wrRkidx wdata => wdata
  | .rdRkdata => 0#64
  | .wrRkdata wdata => wdata
  | .rdRsvd38 => 0#64
  | .wrRsvd38 wdata => wdata
  | .buserr _ _ wdata => wdata

/-- The word of a well-formed operation, from the opcode map (R80) and the command words (R73). -/
def encode (i : Instr) : BusWord := busWord i.dir i.addr i.wdata

end Sys2Proof
end

