-- ==== Sys2Proof/Machine/State.lean ====
section
/-! DEFINITION. Sys2Proof/Machine/State.lean: DESCORE's state record (spec/10_state.md R23), what the model keeps
beside it, the reset state (spec/70_reset_and_hazards.md R230), and the reasons a step can stop. -/

namespace Sys2Proof.Machine

/-- The commands (spec/30_encoding.md R73). -/
inductive Command where
  | ksched
  | encrypt
  | decrypt
  deriving DecidableEq, Repr

/-- The codes `STATUS.ERR` can hold (spec/60_exceptions.md R200). DESCORE never writes 0x6 to 0xF. -/
inductive ErrCode where
  | none
  | illegalCmd
  | busy
  | rkIncomplete
  | rkWidth
  | keyParity
  deriving DecidableEq, Repr

/-- The record of the command in flight, `(op, ks, bs)` (R37): the command and the `KEY` and `DIN` samples taken at
acceptance. -/
structure Pending where
  op : Command
  ks : Word64
  bs : Word64
  deriving DecidableEq, Repr

/-- DESCORE's complete state: exactly the fields of R23. -/
structure Device where
  key     : Word64
  din     : Word64
  dout    : Word64
  rkidx   : BitVec 4
  rk      : RoundKeyFile
  rkValid : BitVec 16
  busy    : Bool
  done    : Bool
  err     : ErrCode
  pend    : Option Pending
  c       : KeyHalf
  d       : KeyHalf
  l       : Half
  r       : Half
  round   : BitVec 5
  deriving DecidableEq, Repr

/-- What the host gets back from one access (spec/60_exceptions.md R219 row 1): a read value or nothing, and whether
the bus answered with an error. -/
structure Reply where
  rdata : Option Word64
  error : Bool
  deriving DecidableEq, Repr

/-- The record of one faulted access (R206): its direction and its offset. -/
structure BusErrorRecord where
  dir  : Dir
  addr : Offset
  deriving DecidableEq, Repr

/-- What can happen next (R10, R60, R231): a host access, a cycle of the reference datapath, the core's completion
step, or a reset. -/
inductive Event where
  | access (w : BusWord)
  | round
  | completion
  | reset
  deriving DecidableEq, Repr

/-- The machine: DESCORE, and beside it what the model needs to run it. `cfg` holds the parameters of
spec/00_scope.md R6, which nothing changes. `script` is what the outside world will do, in order: a statement about
every state is one about every interleaving of host accesses and core steps (spec/20_memory.md R60). `reply` is what
the last access answered (`none` before the first), and `busErrors` the faulted accesses so far, oldest first
(R206). -/
structure State extends Device where
  cfg       : Params
  script    : List Event
  reply     : Option Reply
  busErrors : List BusErrorRecord
  deriving DecidableEq, Repr

/-- DESCORE after reset (R230). DESIGN CHOICE (notes/assumptions/2.md): the spec leaves `RK`, `C`, `D`, `L`, `R` and
`ROUND` unspecified; the model holds 0 in them. -/
def Device.reset : Device where
  key := 0#64
  din := 0#64
  dout := 0#64
  rkidx := 0#4
  rk := Vector.replicate 16 0#48
  rkValid := 0#16
  busy := false
  done := false
  err := .none
  pend := none
  c := 0#28
  d := 0#28
  l := 0#32
  r := 0#32
  round := 0#5

/-- The machine right after reset: R230's values, DESCORE's parameters, no event waiting and no access made yet. -/
def State.reset : State where
  toDevice := Device.reset
  cfg := descoreParams
  script := []
  reply := none
  busErrors := []

/-- Why the machine stops. -/
inductive Fault where
  /-- Raised by the core's completion step, and by nothing else, in a state with `BUSY = 1` and no command recorded.
  The spec's invariant `BUSY = 1 ⇔ PEND ≠ none` (R37) rules that state out of every run, so no run meets this fault.
  Safe: the model stops where the spec gives no command to complete (notes/assumptions/7.md). -/
  | completionWithoutCommand
  deriving DecidableEq, Repr

/-- Why an operation has no meaning here. -/
inductive Refusal where
  /-- For an operation of the opcode table that has no meaning yet. No arm of `exec` answers with it: every row has
  its meaning. Safe: the model would stop. -/
  | notModelled (mnemonic : String)
  deriving DecidableEq, Repr

end Sys2Proof.Machine
end

