-- ==== Sys2Proof/Machine/Operands.lean ====
section
/-! DEFINITION. Sys2Proof/Machine/Operands.lean: the operand fields of a write's data (spec/30_encoding.md R75 to
R77), the entries of the round-key file, and the window's place in the host's address space (spec/20_memory.md
R51). -/

namespace Sys2Proof.Machine

/-- A write to `RKIDX` carries the index in `wdata[3:0]`; `wdata[63:4]` is ignored (R76). -/
def rkIndexField (wdata : Word64) : BitVec 4 := wdata.extractLsb' 0 4

/-- A write to `RKDATA` carries the round key in `wdata[47:0]` (R75). -/
def roundKeyField (wdata : Word64) : RoundKey := wdata.extractLsb' 0 48

/-- `wdata[63:48]` of a write to `RKDATA`, which must be 0 (R75). -/
def roundKeyExcess (wdata : Word64) : BitVec 16 := wdata.extractLsb' 48 16

/-- `RK[j]` (spec/10_state.md R35). -/
def rkEntry (rk : RoundKeyFile) (j : BitVec 4) : RoundKey := rk[j.toNat]'j.isLt

/-- The file with `RK[j]` written. -/
def rkWithEntry (rk : RoundKeyFile) (j : BitVec 4) (v : RoundKey) : RoundKeyFile :=
  rk.set j.toNat v j.isLt

/-- `RK_VALID[j]` (R36). -/
def rkValidBit (valid : BitVec 16) (j : BitVec 4) : Bool := valid.getLsbD j.toNat

/-- `RK_VALID` with bit `j` set (R36). -/
def rkValidWith (valid : BitVec 16) (j : BitVec 4) : BitVec 16 := valid ||| BitVec.twoPow 16 j.toNat

/-- The offset DESCORE sees of a host address: `host_address - DESCORE_BASE` inside the 64-byte window, and nothing
outside it (R51). -/
def windowOffset (hostAddress : Nat) : Option Offset :=
  if Config.descoreBase ≤ hostAddress ∧ hostAddress < Config.descoreBase + 64 then
    some (BitVec.ofNat 6 (hostAddress - Config.descoreBase))
  else none

/-- A host's 64-bit access at a host address, as the event DESCORE receives: none outside the window (R51, R54). -/
def hostAccess (dir : Dir) (hostAddress : Nat) (wdata : Word64) : Option Event :=
  (windowOffset hostAddress).map (fun offset => .access (busWord dir offset wdata))

end Sys2Proof.Machine
end

