-- ==== Sys2Proof/Machine/Flags.lean ====
section
/-! DEFINITION. Sys2Proof/Machine/Flags.lean: the error codes, the `STATUS` word (spec/10_state.md R27) and the checks
of a `CMD` or `RKDATA` write (spec/60_exceptions.md R203). -/

namespace Sys2Proof.Machine

/-- The 4-bit value of a code (R200). -/
def ErrCode.code : ErrCode → BitVec 4
  | .none => 0x0#4
  | .illegalCmd => 0x1#4
  | .busy => 0x2#4
  | .rkIncomplete => 0x3#4
  | .rkWidth => 0x4#4
  | .keyParity => 0x5#4

/-- `RK_READY`: computed, 1 exactly when every entry is valid (R30). -/
def Device.rkReady (m : Device) : Bool := m.rkValid == 0xFFFF#16

/-- The `STATUS` word: `zext_64(RK_VALID ∥ 0x00 ∥ ERR ∥ 0b0 ∥ RK_READY ∥ DONE ∥ BUSY)` (R27). -/
def Device.statusWord (m : Device) : Word64 :=
  (m.rkValid ++ 0#8 ++ m.err.code ++ 0#1 ++ BitVec.ofBool m.rkReady ++ BitVec.ofBool m.done ++
    BitVec.ofBool m.busy).setWidth 64

/-- What `RKDATA` reads as: the selected entry where it is valid, else 0 (R34). -/
def Device.rkdataWord (m : Device) : Word64 :=
  if rkValidBit m.rkValid m.rkidx then (rkEntry m.rk m.rkidx).setWidth 64 else 0#64

/-- The check of a `CMD` write that carries the command `op`, or no command at all; `.none` is a pass (R203). The
first check that fails decides. -/
def Device.commandCheck (parityChecked : Bool) (op : Option Command) (m : Device) : ErrCode :=
  if m.busy then .busy
  else match op with
    | none => .illegalCmd
    | some .ksched => if parityChecked && !parityOk m.key then .keyParity else .none
    | some .encrypt => if m.rkReady then .none else .rkIncomplete
    | some .decrypt => if m.rkReady then .none else .rkIncomplete

/-- The check of an `RKDATA` write; `.none` is a pass (R203). -/
def Device.rkdataCheck (wdata : Word64) (m : Device) : ErrCode :=
  if m.busy then .busy
  else if roundKeyExcess wdata != 0#16 then .rkWidth
  else .none

end Sys2Proof.Machine
end

