-- ==== Sys2Proof/Machine/Ops.lean ====
section
/-! DEFINITION. Sys2Proof/Machine/Ops.lean: the named operations on DESCORE's registers, the two ways an access is
turned away (spec/60_exceptions.md R201, R206), the acceptance of a command, and what the host gets back. DESCORE
takes no trap and returns from none (R210, R211): these two are its whole exception model. -/

namespace Sys2Proof.Machine

/-! Register writes. -/

/-- `KEY <- v` (spec/43_register_access.md R174). -/
def Device.setKey (m : Device) (v : Word64) : Device := { m with key := v }

/-- `DIN <- v` (R176). -/
def Device.setDin (m : Device) (v : Word64) : Device := { m with din := v }

/-- `RKIDX <- v` (R182). -/
def Device.setRkidx (m : Device) (v : BitVec 4) : Device := { m with rkidx := v }

/-- `RK[RKIDX] <- v; RK_VALID[RKIDX] <- 1; ERR <- NONE` (R181). -/
def Device.storeRoundKey (m : Device) (v : RoundKey) : Device :=
  { m with
    rk := rkWithEntry m.rk m.rkidx v
    rkValid := rkValidWith m.rkValid m.rkidx
    err := .none }

/-- `raise Error(code)`: no effect except `ERR <- code` (spec/60_exceptions.md R201). -/
def Device.raiseError (m : Device) (code : ErrCode) : Device := { m with err := code }

/-! Acceptance of a command. -/

/-- What every acceptance does (R203, spec/10_state.md R37): `ERR <- NONE`, `PEND <- (op, KEY, DIN)`, `BUSY <- 1`,
`DONE <- 0`. -/
def Device.startCommand (m : Device) (op : Command) : Device :=
  { m with err := .none, pend := some ⟨op, m.key, m.din⟩, busy := true, done := false }

/-- KSCHED's own part (spec/41_key_schedule.md R126, R130): `RK_VALID <- 0x0000`, and KS_LOAD in the reference
datapath. -/
def Device.loadKeySchedule (t : Tables) (m : Device) : Device :=
  { m with
    rkValid := 0#16
    c := (keyHalvesInitial t m.key).1
    d := (keyHalvesInitial t m.key).2
    round := 0#5 }

/-- ENCRYPT's and DECRYPT's own part (spec/42_feistel.md R155): XF_LOAD in the reference datapath. The latched
direction is `PEND`'s command (notes/assumptions/5.md). -/
def Device.loadBlock (t : Tables) (m : Device) : Device :=
  { m with l := (initialHalves t m.din).1, r := (initialHalves t m.din).2, round := 0#5 }

/-- The acceptance of a command: `accept(op)` of R203. -/
def Device.accept (t : Tables) (op : Command) (m : Device) : Device :=
  match op with
  | .ksched => (m.loadKeySchedule t).startCommand .ksched
  | .encrypt => (m.loadBlock t).startCommand .encrypt
  | .decrypt => (m.loadBlock t).startCommand .decrypt

/-- A `CMD` write after its check: accepted with its command, or turned away with the code (R203). -/
def Device.issue (t : Tables) (op : Option Command) (check : ErrCode) (m : Device) : Device :=
  match check, op with
  | .none, some op => m.accept t op
  | code, _ => m.raiseError code

/-- An `RKDATA` write after its check (R203). -/
def Device.writeRkdata (wdata : Word64) (check : ErrCode) (m : Device) : Device :=
  match check with
  | .none => m.storeRoundKey (roundKeyField wdata)
  | code => m.raiseError code

/-! The same on the machine, and what the host gets back. -/

/-- The machine with DESCORE changed by `f`. -/
def State.onDevice (s : State) (f : Device → Device) : State := { s with toDevice := f s.toDevice }

/-- A write that reached its register: no read value, no error response (R219). -/
def State.answerWrite (s : State) : State := { s with reply := some ⟨none, false⟩ }

/-- A read that reached its register: its value, no error response (R219). -/
def State.answerRead (s : State) (v : Word64) : State := { s with reply := some ⟨some v, false⟩ }

/-- What a faulted access answers: the error response, and a read value of 0 where it was a read (R206). -/
def busErrorReply : Dir → Reply
  | .read => ⟨some 0#64, true⟩
  | .write => ⟨none, true⟩

/-- `raise BusError`: no change of DESCORE, the error response, and the access recorded for the rest of the run
(R206). -/
def State.raiseBusError (s : State) (dir : Dir) (addr : Offset) : State :=
  { s with reply := some (busErrorReply dir), busErrors := s.busErrors ++ [⟨dir, addr⟩] }

/-- A `CMD` write carrying `op`, or no command: R203's checks, then acceptance or rejection. -/
def State.writeCmd (s : State) (op : Option Command) : State :=
  (s.onDevice fun m => m.issue s.cfg.tables op (m.commandCheck s.cfg.checkKeyParity op)).answerWrite

end Sys2Proof.Machine
end

