-- ==== Sys2Proof/Machine/BusErrors.lean ====
section
/-! DEFINITION. Sys2Proof/Machine/BusErrors.lean: the operation of a misaligned access (spec/60_exceptions.md
R206). -/

namespace Sys2Proof.Machine

/-- BUSERR (R206). The run goes on: what the host makes of the error response is the platform's business. -/
def execBuserr (dir : Dir) (addr : Offset) (_wdata : Word64) (s : State) : Host.Outcome State Fault Refusal :=
  .next (s.raiseBusError dir addr)

end Sys2Proof.Machine
end

