-- ==== Sys2Proof/Machine/Commands.lean ====
section
/-! DEFINITION. Sys2Proof/Machine/Commands.lean: the operations a write to `CMD` selects (spec/41_key_schedule.md,
spec/42_feistel.md, spec/60_exceptions.md R204). Each ends with the write answered; an accepted command's result comes
with the core's completion step (Machine/Engine.lean). -/

namespace Sys2Proof.Machine

/-- KSCHED, acceptance (spec/41_key_schedule.md R126, R128). -/
def execKsched (s : State) : Host.Outcome State Fault Refusal :=
  .next (s.writeCmd (some .ksched))

/-- ENCRYPT, acceptance (spec/42_feistel.md R150, R152). -/
def execEncrypt (s : State) : Host.Outcome State Fault Refusal :=
  .next (s.writeCmd (some .encrypt))

/-- DECRYPT, acceptance (spec/42_feistel.md R151, R152). -/
def execDecrypt (s : State) : Host.Outcome State Fault Refusal :=
  .next (s.writeCmd (some .decrypt))

/-- CMD_ILLEGAL (spec/60_exceptions.md R204): `ERR` only. -/
def execCmdIllegal (_wdata : Word64) (s : State) : Host.Outcome State Fault Refusal :=
  .next (s.writeCmd none)

end Sys2Proof.Machine
end

