-- ==== Sys2Proof/Machine/Registers.lean ====
section
/-! DEFINITION. Sys2Proof/Machine/Registers.lean: the register access operations (spec/43_register_access.md) but for
`CMD` writes. -/

namespace Sys2Proof.Machine

/-- RD_CMD (R170): the command word is not stored, so 0. -/
def execRdCmd (s : State) : Host.Outcome State Fault Refusal :=
  .next (s.answerRead 0#64)

/-- RD_STATUS (R171). -/
def execRdStatus (s : State) : Host.Outcome State Fault Refusal :=
  .next (s.answerRead s.statusWord)

/-- WR_STATUS (R172): no state change. -/
def execWrStatus (_wdata : Word64) (s : State) : Host.Outcome State Fault Refusal :=
  .next s.answerWrite

/-- RD_KEY (R173): 0 whatever `KEY` holds. -/
def execRdKey (s : State) : Host.Outcome State Fault Refusal :=
  .next (s.answerRead 0#64)

/-- WR_KEY (R174). -/
def execWrKey (wdata : Word64) (s : State) : Host.Outcome State Fault Refusal :=
  .next (s.onDevice fun m => m.setKey wdata).answerWrite

/-- RD_DIN (R175). -/
def execRdDin (s : State) : Host.Outcome State Fault Refusal :=
  .next (s.answerRead s.din)

/-- WR_DIN (R176). -/
def execWrDin (wdata : Word64) (s : State) : Host.Outcome State Fault Refusal :=
  .next (s.onDevice fun m => m.setDin wdata).answerWrite

/-- RD_DOUT (R177). -/
def execRdDout (s : State) : Host.Outcome State Fault Refusal :=
  .next (s.answerRead s.dout)

/-- WR_DOUT (R178): no state change. -/
def execWrDout (_wdata : Word64) (s : State) : Host.Outcome State Fault Refusal :=
  .next s.answerWrite

/-- RD_RKIDX (R179). -/
def execRdRkidx (s : State) : Host.Outcome State Fault Refusal :=
  .next (s.answerRead (s.rkidx.setWidth 64))

/-- WR_RKIDX (R182). -/
def execWrRkidx (wdata : Word64) (s : State) : Host.Outcome State Fault Refusal :=
  .next (s.onDevice fun m => m.setRkidx (rkIndexField wdata)).answerWrite

/-- RD_RKDATA (R180): masked by `RK_VALID[RKIDX]`. -/
def execRdRkdata (s : State) : Host.Outcome State Fault Refusal :=
  .next (s.answerRead s.rkdataWord)

/-- WR_RKDATA (R181). -/
def execWrRkdata (wdata : Word64) (s : State) : Host.Outcome State Fault Refusal :=
  .next (s.onDevice fun m => m.writeRkdata wdata (m.rkdataCheck wdata)).answerWrite

/-- RD_RSVD38 (R183). -/
def execRdRsvd38 (s : State) : Host.Outcome State Fault Refusal :=
  .next (s.answerRead 0#64)

/-- WR_RSVD38 (R184): no state change. -/
def execWrRsvd38 (_wdata : Word64) (s : State) : Host.Outcome State Fault Refusal :=
  .next s.answerWrite

end Sys2Proof.Machine
end

