-- ==== Sys2Proof/Machine/Dispatch.lean ====
section
/-! DEFINITION. Sys2Proof/Machine/Dispatch.lean: the meaning of each operation, one arm a row of
spec/opcode_table.json. -/

namespace Sys2Proof.Machine

def exec (i : Instr) (s : State) : Host.Outcome State Fault Refusal :=
  match i with
  | .ksched => Sys2Proof.Machine.execKsched s
  | .encrypt => Sys2Proof.Machine.execEncrypt s
  | .decrypt => Sys2Proof.Machine.execDecrypt s
  | .cmdIllegal wdata => Sys2Proof.Machine.execCmdIllegal wdata s
  | .rdCmd => Sys2Proof.Machine.execRdCmd s
  | .rdStatus => Sys2Proof.Machine.execRdStatus s
  | .wrStatus wdata => Sys2Proof.Machine.execWrStatus wdata s
  | .rdKey => Sys2Proof.Machine.execRdKey s
  | .wrKey wdata => Sys2Proof.Machine.execWrKey wdata s
  | .rdDin => Sys2Proof.Machine.execRdDin s
  | .wrDin wdata => Sys2Proof.Machine.execWrDin wdata s
  | .rdDout => Sys2Proof.Machine.execRdDout s
  | .wrDout wdata => Sys2Proof.Machine.execWrDout wdata s
  | .rdRkidx => Sys2Proof.Machine.execRdRkidx s
  | .wrRkidx wdata => Sys2Proof.Machine.execWrRkidx wdata s
  | .rdRkdata => Sys2Proof.Machine.execRdRkdata s
  | .wrRkdata wdata => Sys2Proof.Machine.execWrRkdata wdata s
  | .rdRsvd38 => Sys2Proof.Machine.execRdRsvd38 s
  | .wrRsvd38 wdata => Sys2Proof.Machine.execWrRsvd38 wdata s
  | .buserr dir addr wdata => Sys2Proof.Machine.execBuserr dir addr wdata s

end Sys2Proof.Machine
end

