-- ==== Sys2Proof/Machine/Engine.lean ====
section
/-! DEFINITION. Sys2Proof/Machine/Engine.lean: the core's own steps: a cycle of the reference datapath
(spec/41_key_schedule.md R131, spec/42_feistel.md R156) and the completion step (spec/10_state.md R38); reset
(spec/70_reset_and_hazards.md R231); and which of the agents moves next (spec/20_memory.md R60). -/

namespace Sys2Proof.Machine

/-! The reference datapath. -/

/-- Whether the datapath has a round left to do: `ROUND < 16` (R131, R156). -/
def Device.roundsLeft (m : Device) : Bool := decide (m.round.toNat < 16)

/-- The round index as an entry number of the round-key file. -/
def Device.roundIndex (m : Device) : BitVec 4 := m.round.setWidth 4

/-- KS_ROUND (R131): rotate, write `RK[ROUND]`, `ROUND <- ROUND + 1`. -/
def Device.keyRound (t : Tables) (m : Device) : Device :=
  { m with
    c := (rotateHalves t m.round.toNat (m.c, m.d)).1
    d := (rotateHalves t m.round.toNat (m.c, m.d)).2
    rk := rkWithEntry m.rk m.roundIndex (compressHalves t (rotateHalves t m.round.toNat (m.c, m.d)))
    round := m.round + 1#5 }

/-- The entry XF_ROUND uses (R156): `15 - ROUND` for DECRYPT, else `ROUND`. -/
def Device.roundKeyIndex (m : Device) (op : Command) : BitVec 4 :=
  match op with
  | .decrypt => 15#4 - m.roundIndex
  | .encrypt => m.roundIndex
  | .ksched => m.roundIndex

/-- XF_ROUND (R156): one Feistel round with that entry, `ROUND <- ROUND + 1`. -/
def Device.blockRound (t : Tables) (op : Command) (m : Device) : Device :=
  { m with
    l := (feistelRound t (m.l, m.r) (rkEntry m.rk (m.roundKeyIndex op))).1
    r := (feistelRound t (m.l, m.r) (rkEntry m.rk (m.roundKeyIndex op))).2
    round := m.round + 1#5 }

/-- One cycle of the datapath for the command in flight; with no command or no round left, none. -/
def Device.cycle (t : Tables) (m : Device) : Device :=
  match m.busy && m.roundsLeft, m.pend with
  | true, some p =>
    match p.op with
    | .ksched => m.keyRound t
    | .encrypt => m.blockRound t .encrypt
    | .decrypt => m.blockRound t .decrypt
  | _, _ => m

/-! The completion step. -/

/-- The round keys in the order a command uses them: ascending, and for DECRYPT descending (R150, R151). -/
def keysInOrder (op : Command) (rk : RoundKeyFile) : List RoundKey :=
  match op with
  | .decrypt => rk.toList.reverse
  | .encrypt => rk.toList
  | .ksched => rk.toList

/-- What a KSCHED commits (R127): all of `RK`, and `RK_VALID <- 0xFFFF`. The halves and the round counter are left
where the sixteen rounds of the reference datapath leave them (R129, R132; notes/assumptions/4.md). -/
def Device.commitRoundKeys (t : Tables) (ks : Word64) (m : Device) : Device :=
  { m with
    rk := deriveRoundKeys t ks
    rkValid := 0xFFFF#16
    c := (keyHalves t ks 16).1
    d := (keyHalves t ks 16).2
    round := 16#5 }

/-- What an ENCRYPT or DECRYPT commits (R150, R151): `DOUT`. The halves and the round counter are left where the
sixteen rounds of the reference datapath leave them (R157; notes/assumptions/4.md). -/
def Device.commitBlock (t : Tables) (op : Command) (bs : Word64) (m : Device) : Device :=
  { m with
    dout := transform t bs (keysInOrder op m.rk)
    l := (feistelRounds t (initialHalves t bs) (keysInOrder op m.rk)).1
    r := (feistelRounds t (initialHalves t bs) (keysInOrder op m.rk)).2
    round := 16#5 }

/-- `BUSY <- 0; DONE <- 1; PEND <- none` (R38). -/
def Device.finishCommand (m : Device) : Device :=
  { m with busy := false, done := true, pend := none }

/-- `complete()` of R38 for the command recorded in `PEND`. -/
def Device.complete (t : Tables) (p : Pending) (m : Device) : Device :=
  match p.op with
  | .ksched => (m.commitRoundKeys t p.ks).finishCommand
  | .encrypt => (m.commitBlock t .encrypt p.bs).finishCommand
  | .decrypt => (m.commitBlock t .decrypt p.bs).finishCommand

/-! The turns of the agents other than the host's accesses. -/

/-- A turn of the datapath. -/
def datapathTurn (s : State) : Host.Outcome State Fault Refusal :=
  .next (s.onDevice fun m => m.cycle s.cfg.tables)

/-- A turn of the core's completion step, which is enabled exactly when `BUSY = 1` (R38): with `BUSY = 0` the turn
passes and nothing happens. -/
def completionTurn (s : State) : Host.Outcome State Fault Refusal :=
  match s.busy, s.pend with
  | false, _ => .next s
  | true, some p => .next (s.onDevice fun m => m.complete s.cfg.tables p)
  | true, none => .fault .completionWithoutCommand

/-- A reset (R231): a command in flight is abandoned and R230's values apply. -/
def resetTurn (s : State) : Host.Outcome State Fault Refusal :=
  .next (s.onDevice fun _ => Device.reset)

/-- Whose turn it is. -/
inductive Turn where
  | access (w : BusWord)
  | round
  | completion
  | reset
  | idle
  deriving DecidableEq, Repr

/-- The turn an event stands for. -/
def turnOf : Event → Turn
  | .access w => .access w
  | .round => .round
  | .completion => .completion
  | .reset => .reset

/-- Whose turn it is, and the machine with that event taken from the script. When the script has ended, an enabled
completion step runs (R236: it always comes after a finite number of steps); else the run has ended (R246) and DESCORE
is idle (spec/60_exceptions.md R218). -/
def nextTurn (s : State) : Turn × State :=
  match s.script with
  | [] => (if s.busy then .completion else .idle, s)
  | e :: rest => (turnOf e, { s with script := rest })

end Sys2Proof.Machine
end

