-- ==== Sys2Proof/Machine/Step.lean ====
section
/-! DEFINITION. Sys2Proof/Machine/Step.lean: one step of the machine, and how the host places an operation. -/

namespace Sys2Proof.Machine

/-- One step: the next turn, as the event order of spec/20_memory.md R60 has it. A host access runs the operation its
word decodes to (spec/30_encoding.md R71). -/
def step (s : State) : Host.Outcome State Fault Refusal :=
  match nextTurn s with
  | (.access w, s') => exec (decode w) s'
  | (.round, s') => datapathTurn s'
  | (.completion, s') => completionTurn s'
  | (.reset, s') => resetTurn s'
  | (.idle, s') => .next s'

/-- The machine with the operation of the table's bits `w` as the next event (notes/assumptions/1.md): the very next
step runs it. -/
def State.withFetchWord (s : State) (nbits w : Nat) : State :=
  { s with script := .access (BitVec.ofNat 71 (w % 2 ^ nbits)) :: s.script }

end Sys2Proof.Machine
end

