-- ==== Sys2Proof/Machine/Assembler.lean ====
section
/-! DEFINITION. Sys2Proof/Machine/Assembler.lean: the notation for host programs (spec/30_encoding.md R81, R82), as
words and events. Labels, `if` and `goto` are host control flow and are not DESCORE's (R81). -/

namespace Sys2Proof.Machine

/-- `<reg>` of R81: a register's name, or a raw offset `@<offset>`. -/
inductive Reg where
  | cmd
  | status
  | key
  | din
  | dout
  | rkidx
  | rkdata
  | rsvd38
  | raw (offset : Offset)
  deriving DecidableEq, Repr

/-- The offset a name stands for (spec/20_memory.md R50). -/
def Reg.offset : Reg → Offset
  | .cmd => offsetCmd
  | .status => offsetStatus
  | .key => offsetKey
  | .din => offsetDin
  | .dout => offsetDout
  | .rkidx => offsetRkidx
  | .rkdata => offsetRkdata
  | .rsvd38 => offsetRsvd38
  | .raw offset => offset

/-- `WR <reg>, <value>` (R81). -/
def wr (reg : Reg) (value : Word64) : BusWord := busWord .write reg.offset value

/-- `RD <reg>` (R81). -/
def rd (reg : Reg) : BusWord := busWord .read reg.offset 0#64

/-- The word a command is written to `CMD` as (R73). -/
def Command.word : Command → Word64
  | .ksched => 1#64
  | .encrypt => 2#64
  | .decrypt => 3#64

/-- `KSCHED`, `ENCRYPT` and `DECRYPT` (R82). -/
def issueWord (op : Command) : BusWord := wr .cmd op.word

/-- `SETRK j, v` (R82). -/
def setRk (j : BitVec 4) (v : Word64) : List BusWord := [wr .rkidx (j.setWidth 64), wr .rkdata v]

/-- `GETRK j` (R82). -/
def getRk (j : BitVec 4) : List BusWord := [wr .rkidx (j.setWidth 64), rd .rkdata]

/-- `WAIT` reads `STATUS` again while this holds of what it read: `(rdata & 1) = 1` (R82). -/
def waitGoesOn (rdata : Word64) : Bool := rdata &&& 1#64 == 1#64

/-- `CHECK` requires this of what it read: `(rdata >> 4) & 0xF = 0` (R82). -/
def checkPasses (rdata : Word64) : Bool := (rdata >>> 4) &&& 0xF#64 == 0#64

/-- Host accesses as events, in program order. -/
def accesses (ws : List BusWord) : List Event := ws.map Event.access

end Sys2Proof.Machine
end

