-- ==== Sys2Proof/Safety.lean ====
section
/-! DEFINITION. Sys2Proof/Safety.lean: the invariants of a run, what happens next, what a host can tell of a state, and
what a finished run is. Claims are stated in these terms. -/

namespace Sys2Proof.Machine

/-! Invariants. -/

/-- What the command in flight says of `RK_VALID`: 0 from KSCHED's acceptance to its completion (spec/10_state.md
R36), and all ones while a block is in flight, since it is accepted only so (R30) and nothing changes it before
completion. -/
abbrev Device.ValidBitsFitCommand (m : Device) : Prop :=
  ∀ p ∈ m.pend, m.rkValid = if p.op = .ksched then 0#16 else 0xFFFF#16

/-- The invariant of every run: `BUSY = 1 ⇔ PEND ≠ none` (R37); never busy and done together (R28, R29); `ROUND` from 0
to 16 (R40); and the valid bits fit the command in flight. -/
abbrev Device.Inv (m : Device) : Prop :=
  m.busy = m.pend.isSome ∧ ¬(m.busy = true ∧ m.done = true) ∧ m.round.toNat ≤ 16 ∧ m.ValidBitsFitCommand

/-- The reference datapath is where `ROUND` says. For KSCHED the halves are those of the schedule after `ROUND` rounds,
and the first `ROUND` entries of `RK` are written (spec/41_key_schedule.md R130, R131). For a block the halves are
those of the transform after `ROUND` rounds (spec/42_feistel.md R155, R156). -/
def Device.DatapathOnCourse (t : Tables) (m : Device) : Prop :=
  ∀ p ∈ m.pend,
    if p.op = .ksched then
      (m.c, m.d) = keyHalves t p.ks m.round.toNat ∧
        ∀ j : BitVec 4, j.toNat < m.round.toNat → rkEntry m.rk j = roundKeyOf t p.ks j.toNat
    else
      (m.l, m.r) = feistelRounds t (initialHalves t p.bs) ((keysInOrder p.op m.rk).take m.round.toNat)

/-! What happens next. -/

/-- The next event is a reset (R231). -/
abbrev State.ResetsNext (s : State) : Prop := s.script.head? = some .reset

/-- A command is in flight and its completion step comes next (R38): it is the next event, or the script has ended. -/
abbrev State.CompletesNext (s : State) : Prop :=
  s.busy = true ∧ (s.script = [] ∨ s.script.head? = some .completion)

/-- The next event is a `CMD` write that passes every check of R203 and carries this command. -/
abbrev State.AcceptsNext (s : State) (op : Command) : Prop :=
  s.busy = false ∧ s.script.head? = some (.access (busWord .write offsetCmd op.word)) ∧
    if op = .ksched then s.cfg.checkKeyParity = false ∨ parityOk s.key = true else s.rkValid = 0xFFFF#16

/-- The next event is an `RKDATA` write that passes every check of R203 and carries this round key. -/
abbrev State.StoresNext (s : State) (v : RoundKey) : Prop :=
  s.busy = false ∧ s.script.head? = some (.access (busWord .write offsetRkdata (v.setWidth 64)))

/-- The next event is a host write to this offset. -/
abbrev State.WritesNext (s : State) (offset : Offset) (wdata : Word64) : Prop :=
  s.script.head? = some (.access (busWord .write offset wdata))

/-- An event that leaves `CMD`, `RKDATA` and `DIN` alone: a cycle of the datapath, a read, or a write to another
offset. Neither a completion step nor a reset. -/
def Event.quiet : Event → Bool
  | .access w => dirOf w == .read || (addrOf w != offsetCmd && addrOf w != offsetRkdata && addrOf w != offsetDin)
  | .round => true
  | .completion => false
  | .reset => false

/-- The machine with its next event taken. -/
abbrev State.afterEvent (s : State) : State := { s with script := s.script.tail }

/-! What a host can tell. -/

/-- What no host access and no completion can tell apart (spec/93_implementation_defined.md I4, I5): the same host
registers, valid bits and command in flight, and the same round key in every entry that is valid. The halves, the
round counter and the entries that are not valid may differ. -/
abbrev Device.LooksLike (a b : Device) : Prop :=
  a.key = b.key ∧ a.din = b.din ∧ a.dout = b.dout ∧ a.rkidx = b.rkidx ∧ a.rkValid = b.rkValid ∧
    a.busy = b.busy ∧ a.done = b.done ∧ a.err = b.err ∧ a.pend = b.pend ∧
    ∀ j : BitVec 4, rkValidBit a.rkValid j = true → rkEntry a.rk j = rkEntry b.rk j

/-- The same of two machines: besides DESCORE, all that the host gave and got is the same. -/
abbrev State.LooksLike (s t : State) : Prop :=
  s.toDevice.LooksLike t.toDevice ∧ s.cfg = t.cfg ∧ s.script = t.script ∧ s.reply = t.reply ∧
    s.busErrors = t.busErrors

/-- A row of the opcode map that reads (spec/43_register_access.md): every read of the offset decodes to the
operation, and the operation answers `value` with no error response and changes nothing. -/
def ReadsAs (offset : Offset) (i : Instr) (value : State → Word64) : Prop :=
  (∀ wdata, decode (busWord .read offset wdata) = i) ∧
    ∀ s, exec i s = .next { s with reply := some ⟨some (value s), false⟩ }

/-- A row of the opcode map that writes: every write of the offset decodes to the operation, and the operation changes
DESCORE as `effect` says, answers with no error response and changes nothing else. -/
def WritesAs (offset : Offset) (i : Word64 → Instr) (effect : Word64 → Device → Device) : Prop :=
  (∀ wdata, decode (busWord .write offset wdata) = i wdata) ∧
    ∀ wdata s, exec (i wdata) s = .next { s with toDevice := effect wdata s.toDevice, reply := some ⟨none, false⟩ }

/-! Runs. -/

/-- A run is finished when the host has made its last access and `BUSY = 0` (spec/70_reset_and_hazards.md R246). -/
abbrev State.Finished (s : State) : Prop := s.script = [] ∧ s.busy = false

end Sys2Proof.Machine
end

