-- ==== Sys2Proof/Certificates/Slice0/Obligations.lean ====
section
/-! DEFINITION. Sys2Proof/Certificates/Slice0/Obligations.lean: the statements for the provers, from the numbered rules
of spec/. A statement that rests on a choice of the model says so. -/

open Sys2Proof Sys2Proof.Machine

/-! Encoding (spec/30_encoding.md). -/

/-- R70, R71, R80: decoding the word of a well-formed operation gives the operation back, whatever its operands. -/
def Obligations.DecodeOfEncodeIsTheOperation : Prop :=
  ∀ i : Instr, i.WellFormed → decode (encode i) = i

/-- Every word decodes to a well-formed operation, whose own word is that word, but that an aligned read's ignored
`wdata` is 0 in it (notes/assumptions/12.md). So BUSERR is read from misaligned words only, which is the spec's own
inference from the rows (spec/30_encoding.md section 5). -/
def Obligations.EveryWordIsSomeOperationsWord : Prop :=
  ∀ w : BusWord, (decode w).WellFormed ∧
    encode (decode w) =
      if dirOf w = .read ∧ (addrOf w).extractLsb' 0 3 = 0#3 then busWord .read (addrOf w) 0#64 else w

/-- R71: the first row of the table with `(BOW & mask) = match` selects the operation, and some row always does. -/
def Obligations.DecodingIsFirstMatch : Prop :=
  ∀ w : BusWord, ∃ earlier row later,
    opcodeTable = earlier ++ row :: later ∧ (∀ r ∈ earlier, w &&& r.mask ≠ r.value) ∧
      w &&& row.mask = row.value ∧ decode w = row.build w

/-- R80: the opcode map, row by row. -/
def Obligations.OpcodeMapRowByRow : Prop :=
  decode (busWord .write 0x00#6 0x1#64) = .ksched ∧
  decode (busWord .write 0x00#6 0x2#64) = .encrypt ∧
  decode (busWord .write 0x00#6 0x3#64) = .decrypt ∧
  (∀ x, x ≠ 0x1#64 → x ≠ 0x2#64 → x ≠ 0x3#64 → decode (busWord .write 0x00#6 x) = .cmdIllegal x) ∧
  (∀ x, decode (busWord .read 0x00#6 x) = .rdCmd ∧
    decode (busWord .read 0x08#6 x) = .rdStatus ∧ decode (busWord .write 0x08#6 x) = .wrStatus x ∧
    decode (busWord .read 0x10#6 x) = .rdKey ∧ decode (busWord .write 0x10#6 x) = .wrKey x ∧
    decode (busWord .read 0x18#6 x) = .rdDin ∧ decode (busWord .write 0x18#6 x) = .wrDin x ∧
    decode (busWord .read 0x20#6 x) = .rdDout ∧ decode (busWord .write 0x20#6 x) = .wrDout x ∧
    decode (busWord .read 0x28#6 x) = .rdRkidx ∧ decode (busWord .write 0x28#6 x) = .wrRkidx x ∧
    decode (busWord .read 0x30#6 x) = .rdRkdata ∧ decode (busWord .write 0x30#6 x) = .wrRkdata x ∧
    decode (busWord .read 0x38#6 x) = .rdRsvd38 ∧ decode (busWord .write 0x38#6 x) = .wrRsvd38 x) ∧
  ∀ d a x, a.extractLsb' 0 3 ≠ 0#3 → decode (busWord d a x) = .buserr d a x

/-- Words of spec/95_test_vectors.md V-RA-1, one or more of every family, as the spec writes them. -/
def Obligations.WrittenWordsDecodeAsListed : Prop :=
  decode 0x400000000000000001#71 = .ksched ∧ decode 0x400000000000000002#71 = .encrypt ∧
  decode 0x400000000000000003#71 = .decrypt ∧ decode 0x400000000000000011#71 = .cmdIllegal 0x11#64 ∧
  decode 0x408000000000000001#71 = .cmdIllegal 0x8000000000000001#64 ∧
  decode 0x00FFFFFFFFFFFFFFFF#71 = .rdCmd ∧ decode 0x080000000000000000#71 = .rdStatus ∧
  decode 0x50133457799BBCDFF1#71 = .wrKey 0x133457799BBCDFF1#64 ∧
  decode 0x68000000000000000F#71 = .wrRkidx 0xF#64 ∧
  decode 0x700000FFFFFFFFFFFF#71 = .wrRkdata 0x0000FFFFFFFFFFFF#64 ∧
  decode 0x78FFFFFFFFFFFFFFFF#71 = .wrRsvd38 0xFFFFFFFFFFFFFFFF#64 ∧
  decode 0x0C0000000000000000#71 = .buserr .read 0x0C#6 0#64 ∧
  decode 0x710000000000000007#71 = .buserr .write 0x31#6 0x7#64

/-- R74: the illegal command words, by their fields. -/
def Obligations.IllegalCommandWordsByField : Prop :=
  ∀ x : Word64,
    (x.extractLsb' 0 4 = 0x0#4 ∨ 0x4#4 ≤ x.extractLsb' 0 4 ∨ x.extractLsb' 4 60 ≠ 0#60) →
      decode (busWord .write 0x00#6 x) = .cmdIllegal x ∧
        ∀ s, ∃ t, exec (.cmdIllegal x) s = .next t ∧
          t.toDevice = { s.toDevice with err := if s.busy = true then .busy else .illegalCmd }

/-! Steps. -/

/-- When the next event is a host access (notes/assumptions/1.md), the step is exactly the meaning of the decoded
operation, on the machine with that event taken; and the operation placed by `withFetchWord` is the one the very next
step runs. -/
def Obligations.StepRunsTheDecodedOperation : Prop :=
  (∀ s w rest, s.script = .access w :: rest → step s = exec (decode w) { s with script := rest }) ∧
    ∀ (s : State) nbits w i, decodeTableWord nbits w = some i → step (s.withFetchWord nbits w) = exec i s

/-- The turns that are not accesses (R38, R60, R231; the order of events, what a step does when the script has ended,
and the datapath's cycles are the model's choices of notes/assumptions/1.md and 4.md): a completion event with
`BUSY = 0` passes, and a finished run stays as it is. -/
def Obligations.IdleTurnsChangeNothing : Prop :=
  ∀ s : State, s.busy = false →
    (s.script = [] → step s = .next s) ∧
    ∀ rest, s.script = .completion :: rest ∨ s.script = .round :: rest → step s = .next { s with script := rest }

/-- R230, R231: what a reset leaves, from whatever state, also with a command in flight; and the state the machine
starts in. -/
def Obligations.ResetLeavesTheResetState : Prop :=
  (∀ s : State, s.ResetsNext → ∃ t, step s = .next t ∧ t.key = 0#64 ∧ t.din = 0#64 ∧ t.dout = 0#64 ∧
    t.rkidx = 0#4 ∧ t.rkValid = 0#16 ∧ t.busy = false ∧ t.done = false ∧ t.err = .none ∧ t.pend = none ∧
    t.statusWord = 0#64 ∧ t.rkReady = false ∧ t.cfg.tables = s.cfg.tables) ∧
  State.reset.key = 0#64 ∧ State.reset.din = 0#64 ∧ State.reset.dout = 0#64 ∧ State.reset.rkidx = 0#4 ∧
    State.reset.rkValid = 0#16 ∧ State.reset.busy = false ∧ State.reset.done = false ∧ State.reset.err = .none ∧
    State.reset.pend = none ∧ State.reset.statusWord = 0#64 ∧ State.reset.rkReady = false

/-! Register access (spec/43_register_access.md). -/

/-- R170, R171, R173, R179, R183: what the reads of `CMD`, `STATUS`, `KEY`, `RKIDX` and the reserved slot answer;
nothing else changes. `STATUS[7:4]` is given code by code, with the values of R200. -/
def Obligations.ReadsAnswerTheirRegister : Prop :=
  ReadsAs 0x00#6 .rdCmd (fun _ => 0#64) ∧
  ReadsAs 0x08#6 .rdStatus (fun s =>
    (s.rkValid ++ 0x00#8 ++
      (if s.err = .none then 0x0#4 else if s.err = .illegalCmd then 0x1#4 else if s.err = .busy then 0x2#4
        else if s.err = .rkIncomplete then 0x3#4 else if s.err = .rkWidth then 0x4#4 else 0x5#4) ++
      0#1 ++ BitVec.ofBool (s.rkValid == 0xFFFF#16) ++ BitVec.ofBool s.done ++ BitVec.ofBool s.busy :
        BitVec 32).setWidth 64) ∧
  ReadsAs 0x10#6 .rdKey (fun _ => 0#64) ∧
  ReadsAs 0x28#6 .rdRkidx (fun s => s.rkidx.setWidth 64) ∧
  ReadsAs 0x38#6 .rdRsvd38 (fun _ => 0#64)

/-- What the reads of `DIN`, `DOUT` and `RKDATA` answer (from R175, R177, R180, whose remarks on when these registers
change are in other statements); nothing else changes. -/
def Obligations.DataReadsAnswerTheirRegister : Prop :=
  ReadsAs 0x18#6 .rdDin (fun s => s.din) ∧
  ReadsAs 0x20#6 .rdDout (fun s => s.dout) ∧
  ReadsAs 0x30#6 .rdRkdata (fun s =>
    if s.rkValid.getLsbD s.rkidx.toNat then (rkEntry s.rk s.rkidx).setWidth 64 else 0#64)

/-- R172, R174, R176, R178, R182, R184: what every write but those of `CMD` and `RKDATA` stores; nothing else
changes. -/
def Obligations.WritesStoreTheirRegister : Prop :=
  WritesAs 0x08#6 .wrStatus (fun _ m => m) ∧
  WritesAs 0x10#6 .wrKey (fun x m => { m with key := x }) ∧
  WritesAs 0x18#6 .wrDin (fun x m => { m with din := x }) ∧
  WritesAs 0x20#6 .wrDout (fun _ m => m) ∧
  WritesAs 0x28#6 .wrRkidx (fun x m => { m with rkidx := x.extractLsb' 0 4 }) ∧
  WritesAs 0x38#6 .wrRsvd38 (fun _ m => m)

/-- R75, R181: a write of `RKDATA`, its two rejections and its success, entry by entry; `RK_READY` becomes 1 with the
16th valid bit. -/
def Obligations.RoundKeyWriteIsCheckedThenStored : Prop :=
  ∀ (s : State) (x : Word64), decode (busWord .write 0x30#6 x) = .wrRkdata x ∧
    (s.busy = true →
      exec (.wrRkdata x) s =
        .next { s with toDevice := { s.toDevice with err := .busy }, reply := some ⟨none, false⟩ }) ∧
    (s.busy = false → x.extractLsb' 48 16 ≠ 0#16 →
      exec (.wrRkdata x) s =
        .next { s with toDevice := { s.toDevice with err := .rkWidth }, reply := some ⟨none, false⟩ }) ∧
    (s.busy = false → x.extractLsb' 48 16 = 0#16 →
      ∃ rk rkValid,
        exec (.wrRkdata x) s =
          .next { s with
            toDevice := { s.toDevice with rk := rk, rkValid := rkValid, err := .none }
            reply := some ⟨none, false⟩ } ∧
        (∀ j : BitVec 4, rkEntry rk j = if j = s.rkidx then x.extractLsb' 0 48 else rkEntry s.rk j) ∧
        (∀ j : BitVec 4, rkValid.getLsbD j.toNat = (decide (j = s.rkidx) || s.rkValid.getLsbD j.toNat)) ∧
        (rkValid = 0xFFFF#16 ↔ ∀ j : BitVec 4, j ≠ s.rkidx → s.rkValid.getLsbD j.toNat = true))

/-- A read has no side effect on DESCORE, and the same read again answers the same (from R57). -/
def Obligations.ReadsHaveNoSideEffect : Prop :=
  ∀ (i : Instr) (s : State), i.dir = .read →
    ∃ t t', exec i s = .next t ∧ t.toDevice = s.toDevice ∧ t.cfg = s.cfg ∧
      exec i t = .next t' ∧ t'.toDevice = s.toDevice ∧ t'.reply = t.reply

/-- That the key cannot be read back (from R24): while KSCHED's parity check is off, no access answers or stores
anything that depends on `KEY`, but for the sample an accepted command takes and the halves KS_LOAD puts it into. -/
def Obligations.NoAccessReadsTheKeyBack : Prop :=
  ∀ (i : Instr) (s : State) (other : Word64), s.cfg.checkKeyParity = false →
    ∃ t t', exec i s = .next t ∧ exec i { s with key := other } = .next t' ∧
      t'.reply = t.reply ∧ t'.busErrors = t.busErrors ∧ t'.din = t.din ∧ t'.dout = t.dout ∧ t'.rkidx = t.rkidx ∧
      t'.rk = t.rk ∧ t'.rkValid = t.rkValid ∧ t'.busy = t.busy ∧ t'.done = t.done ∧ t'.err = t.err ∧
      t'.l = t.l ∧ t'.r = t.r ∧ t'.round = t.round ∧ t'.script = t.script ∧ t'.cfg = t.cfg ∧
      t'.statusWord = t.statusWord ∧ t'.rkdataWord = t.rkdataWord

/-! Bus errors (spec/60_exceptions.md R206). -/

/-- R206: a misaligned access answers with the error response, a read value of 0 if it reads, and is recorded; DESCORE
does not change; and no step drops what was recorded. -/
def Obligations.MisalignedAccessOnlyAnswersAndRecords : Prop :=
  (∀ (d : Dir) (a : Offset) (x : Word64) (s : State), a.extractLsb' 0 3 ≠ 0#3 →
    decode (busWord d a x) = .buserr d a x ∧
      exec (.buserr d a x) s =
        .next { s with
          reply := some ⟨if d = .read then some 0#64 else none, true⟩
          busErrors := s.busErrors ++ [⟨d, a⟩] }) ∧
  ∀ s t : State, step s = .next t → ∃ more, t.busErrors = s.busErrors ++ more

/-- The record of faulted accesses is kept, and a step adds to it exactly when it makes a misaligned access
(notes/assumptions/6.md). -/
def Obligations.FaultedAccessesStayRecorded : Prop :=
  ∀ s t : State, step s = .next t →
    (∃ w, s.script.head? = some (.access w) ∧ (addrOf w).extractLsb' 0 3 ≠ 0#3 ∧
      t.busErrors = s.busErrors ++ [⟨dirOf w, addrOf w⟩]) ∨
    ((∀ w, s.script.head? = some (.access w) → (addrOf w).extractLsb' 0 3 = 0#3) ∧ t.busErrors = s.busErrors)

/-! Commands. -/

/-- R203: the order of the checks of a `CMD` write, whatever its word, and of an `RKDATA` write. -/
def Obligations.WritesAreCheckedInOrder : Prop :=
  ∀ (s : State) (w : Word64),
    (∃ t, exec (decode (busWord .write 0x00#6 w)) s = .next t ∧
      if s.busy = true then t.toDevice = { s.toDevice with err := .busy }
      else if ¬(w = 0x1#64 ∨ w = 0x2#64 ∨ w = 0x3#64) then t.toDevice = { s.toDevice with err := .illegalCmd }
      else if (w = 0x2#64 ∨ w = 0x3#64) ∧ s.rkValid ≠ 0xFFFF#16 then
        t.toDevice = { s.toDevice with err := .rkIncomplete }
      else if w = 0x1#64 ∧ s.cfg.checkKeyParity = true ∧ parityOk s.key = false then
        t.toDevice = { s.toDevice with err := .keyParity }
      else t.err = .none ∧ t.busy = true ∧ t.done = false ∧
        t.pend = some ⟨if w = 0x1#64 then .ksched else if w = 0x2#64 then .encrypt else .decrypt, s.key, s.din⟩) ∧
    ∃ t, exec (decode (busWord .write 0x30#6 w)) s = .next t ∧
      if s.busy = true then t.toDevice = { s.toDevice with err := .busy }
      else if w.extractLsb' 48 16 ≠ 0#16 then t.toDevice = { s.toDevice with err := .rkWidth }
      else rkEntry t.rk s.rkidx = w.extractLsb' 0 48 ∧ t.rkValid.getLsbD s.rkidx.toNat = true ∧ t.err = .none

/-- R126, R130: KSCHED: its two rejections; and its acceptance, what it sets and that nothing else changes. -/
def Obligations.KschedIsCheckedThenAccepted : Prop :=
  ∀ s : State,
    (s.busy = true →
      exec .ksched s =
        .next { s with toDevice := { s.toDevice with err := .busy }, reply := some ⟨none, false⟩ }) ∧
    (s.busy = false → s.cfg.checkKeyParity = true → parityOk s.key = false →
      exec .ksched s =
        .next { s with toDevice := { s.toDevice with err := .keyParity }, reply := some ⟨none, false⟩ }) ∧
    (s.busy = false → s.cfg.checkKeyParity = false ∨ parityOk s.key = true →
      ∃ t, exec .ksched s = .next t ∧ t.statusWord = 0x0000000000000001#64 ∧
        t = { s with
          toDevice := { s.toDevice with
            err := .none
            rkValid := 0x0000#16
            pend := some ⟨.ksched, s.key, s.din⟩
            busy := true
            done := false
            c := permute 28 s.cfg.tables.pc1c s.key
            d := permute 28 s.cfg.tables.pc1d s.key
            round := 0#5 }
          reply := some ⟨none, false⟩ })

/-- KSCHED's completion step (from R127): all of `RK`, the valid bits, `BUSY`, `DONE` and `PEND`; the host's registers,
`ERR`, `L` and `R` are as they were. R127 writes nothing else; that the model also leaves `C`, `D` and `ROUND` where
sixteen rounds leave them is its choice (notes/assumptions/4.md), and no host can tell. -/
def Obligations.KschedCompletionFillsTheFile : Prop :=
  ∀ (s : State) (ks bs : Word64), s.CompletesNext → s.pend = some ⟨.ksched, ks, bs⟩ →
    ∃ t, step s = .next t ∧ (∀ j : BitVec 4, rkEntry t.rk j = roundKeyOf s.cfg.tables ks j.toNat) ∧
      t.rkValid = 0xFFFF#16 ∧ t.rkReady = true ∧ t.busy = false ∧ t.done = true ∧ t.pend = none ∧
      t.dout = s.dout ∧ t.din = s.din ∧ t.key = s.key ∧ t.rkidx = s.rkidx ∧ t.err = s.err ∧
      t.l = s.l ∧ t.r = s.r ∧ (t.c, t.d) = keyHalves s.cfg.tables ks 16 ∧ t.round = 16#5 ∧
      t.cfg = s.cfg ∧ t.reply = s.reply ∧ t.busErrors = s.busErrors ∧ t.script = s.script.tail

/-- ENCRYPT (from R150): its rejections while busy and without sixteen round keys, its acceptance, and its completion.
The values of `L`, `R` and `ROUND` are those of R155 at acceptance and, at completion, the model's choice of
notes/assumptions/4.md (where sixteen rounds leave them); everything not named stays. -/
def Obligations.EncryptTransformsInAscendingOrder : Prop :=
  (∀ s : State, s.busy = true →
    exec .encrypt s =
      .next { s with toDevice := { s.toDevice with err := .busy }, reply := some ⟨none, false⟩ }) ∧
  (∀ s : State, s.busy = false → s.rkValid ≠ 0xFFFF#16 →
    exec .encrypt s =
      .next { s with toDevice := { s.toDevice with err := .rkIncomplete }, reply := some ⟨none, false⟩ }) ∧
  (∀ s : State, s.busy = false → s.rkValid = 0xFFFF#16 →
    exec .encrypt s =
      .next { s with
        toDevice := { s.toDevice with
          err := .none
          pend := some ⟨.encrypt, s.key, s.din⟩
          busy := true
          done := false
          l := (permute 64 s.cfg.tables.ip s.din).extractLsb' 32 32
          r := (permute 64 s.cfg.tables.ip s.din).extractLsb' 0 32
          round := 0#5 }
        reply := some ⟨none, false⟩ }) ∧
  ∀ (s : State) (ks bs : Word64), s.CompletesNext → s.pend = some ⟨.encrypt, ks, bs⟩ →
    ∃ t, step s = .next t ∧ t.dout = transform s.cfg.tables bs s.rk.toList ∧
      (t.l, t.r) = feistelRounds s.cfg.tables (initialHalves s.cfg.tables bs) s.rk.toList ∧ t.round = 16#5 ∧
      t.c = s.c ∧ t.d = s.d ∧
      t.busy = false ∧ t.done = true ∧ t.pend = none ∧ t.rk = s.rk ∧ t.rkValid = s.rkValid ∧ t.key = s.key ∧
      t.din = s.din ∧ t.rkidx = s.rkidx ∧ t.err = s.err ∧ t.cfg = s.cfg ∧ t.reply = s.reply ∧
      t.busErrors = s.busErrors ∧ t.script = s.script.tail

/-- DECRYPT (from R151): the same with the round keys reversed. The values of `L`, `R` and `ROUND` are as for ENCRYPT
(R155 and notes/assumptions/4.md; the latched direction of R155 is `PEND`'s command, notes/assumptions/5.md). -/
def Obligations.DecryptTransformsInDescendingOrder : Prop :=
  (∀ s : State, s.busy = true →
    exec .decrypt s =
      .next { s with toDevice := { s.toDevice with err := .busy }, reply := some ⟨none, false⟩ }) ∧
  (∀ s : State, s.busy = false → s.rkValid ≠ 0xFFFF#16 →
    exec .decrypt s =
      .next { s with toDevice := { s.toDevice with err := .rkIncomplete }, reply := some ⟨none, false⟩ }) ∧
  (∀ s : State, s.busy = false → s.rkValid = 0xFFFF#16 →
    exec .decrypt s =
      .next { s with
        toDevice := { s.toDevice with
          err := .none
          pend := some ⟨.decrypt, s.key, s.din⟩
          busy := true
          done := false
          l := (permute 64 s.cfg.tables.ip s.din).extractLsb' 32 32
          r := (permute 64 s.cfg.tables.ip s.din).extractLsb' 0 32
          round := 0#5 }
        reply := some ⟨none, false⟩ }) ∧
  ∀ (s : State) (ks bs : Word64), s.CompletesNext → s.pend = some ⟨.decrypt, ks, bs⟩ →
    ∃ t, step s = .next t ∧ t.dout = transform s.cfg.tables bs s.rk.toList.reverse ∧
      (t.l, t.r) = feistelRounds s.cfg.tables (initialHalves s.cfg.tables bs) s.rk.toList.reverse ∧ t.round = 16#5 ∧
      t.c = s.c ∧ t.d = s.d ∧
      t.busy = false ∧ t.done = true ∧ t.pend = none ∧ t.rk = s.rk ∧ t.rkValid = s.rkValid ∧ t.key = s.key ∧
      t.din = s.din ∧ t.rkidx = s.rkidx ∧ t.err = s.err ∧ t.cfg = s.cfg ∧ t.reply = s.reply ∧
      t.busErrors = s.busErrors ∧ t.script = s.script.tail

/-- R204: CMD_ILLEGAL: `ERR` only. -/
def Obligations.IllegalCommandSetsOnlyErr : Prop :=
  (∀ x, x ≠ 0x1#64 → x ≠ 0x2#64 → x ≠ 0x3#64 → decode (busWord .write 0x00#6 x) = .cmdIllegal x) ∧
  ∀ (x : Word64) (s : State),
    (s.busy = true →
      exec (.cmdIllegal x) s =
        .next { s with toDevice := { s.toDevice with err := .busy }, reply := some ⟨none, false⟩ }) ∧
    (s.busy = false →
      exec (.cmdIllegal x) s =
        .next { s with toDevice := { s.toDevice with err := .illegalCmd }, reply := some ⟨none, false⟩ })

/-- R201: a `CMD` or `RKDATA` write that leaves a code changes nothing of DESCORE but `ERR`. -/
def Obligations.RejectedWriteChangesOnlyErr : Prop :=
  ∀ (i : Instr) (s t : State), exec i s = .next t → t.err ≠ .none → i.dir = .write →
    i.addr = 0x00#6 ∨ i.addr = 0x30#6 → t.toDevice = { s.toDevice with err := t.err }

/-- The parity check (from R128): `parity_ok` counts the 1-bits of each byte, and KSCHED is turned away by it only
where `CHECK_KEY_PARITY` is true. -/
def Obligations.ParityIsCheckedOnlyWhereEnforced : Prop :=
  (∀ key : Word64, parityOk key = true ↔
    ∀ k < 8, ((List.range 8).countP fun i => key.getLsbD (56 - 8 * k + i)) % 2 = 1) ∧
  ∀ s : State, s.busy = false →
    (s.cfg.checkKeyParity = true → parityOk s.key = false →
      exec .ksched s =
        .next { s with toDevice := { s.toDevice with err := .keyParity }, reply := some ⟨none, false⟩ }) ∧
    (s.cfg.checkKeyParity = false → ∃ t, exec .ksched s = .next t ∧ t.err = .none ∧ t.busy = true)

/-- The BUSY window (from R28, R241): while `BUSY = 1` every write to `CMD` or `RKDATA` is turned away with BUSY, and
the command in flight is not disturbed. -/
def Obligations.BusyWindowTurnsWritesAway : Prop :=
  ∀ (s : State) (wdata : Word64), s.busy = true →
    s.WritesNext offsetCmd wdata ∨ s.WritesNext offsetRkdata wdata →
      step s =
        .next { s.afterEvent with toDevice := { s.toDevice with err := .busy }, reply := some ⟨none, false⟩ }

/-! What writes each piece of state (spec/10_state.md), over every step. -/

/-- R28, R29: `BUSY`, `DONE` and `PEND` change at acceptance, at completion and at reset, and at nothing else; and
while `BUSY = 1` a write to `CMD` or `RKDATA` leaves `ERR = BUSY`. -/
def Obligations.CommandStatusFollowsTheCommand : Prop :=
  ∀ s t : State, step s = .next t →
    (s.ResetsNext → t.busy = false ∧ t.done = false ∧ t.pend = none) ∧
    (∀ op, s.AcceptsNext op → t.busy = true ∧ t.done = false ∧ t.pend = some ⟨op, s.key, s.din⟩) ∧
    (s.CompletesNext → t.busy = false ∧ t.done = true ∧ t.pend = none) ∧
    (¬s.ResetsNext → (∀ op, ¬s.AcceptsNext op) → ¬s.CompletesNext →
      t.busy = s.busy ∧ t.done = s.done ∧ t.pend = s.pend) ∧
    ∀ x, s.busy = true → s.WritesNext offsetCmd x ∨ s.WritesNext offsetRkdata x → t.err = .busy

/-- R36: what changes `RK_VALID`. -/
def Obligations.ValidBitsHaveTheseWriters : Prop :=
  ∀ s t : State, step s = .next t →
    (s.ResetsNext → t.rkValid = 0x0000#16) ∧
    (s.AcceptsNext .ksched → t.rkValid = 0x0000#16) ∧
    (∀ p, s.CompletesNext → s.pend = some p → p.op = .ksched → t.rkValid = 0xFFFF#16) ∧
    (∀ v, s.StoresNext v → ∀ j : BitVec 4,
      t.rkValid.getLsbD j.toNat = (decide (j = s.rkidx) || s.rkValid.getLsbD j.toNat)) ∧
    (¬s.ResetsNext → ¬s.AcceptsNext .ksched → (∀ v, ¬s.StoresNext v) →
      (∀ p, s.CompletesNext → s.pend = some p → p.op ≠ .ksched) → t.rkValid = s.rkValid)

/-- What writes `DOUT` (from R26): only the completion step of an ENCRYPT or DECRYPT writes `DOUT`, and reset clears
it. -/
def Obligations.DoutHasTheseWriters : Prop :=
  ∀ s t : State, step s = .next t →
    (s.ResetsNext → t.dout = 0x0000000000000000#64) ∧
    (∀ p, s.CompletesNext → s.pend = some p → p.op = .encrypt →
      t.dout = transform s.cfg.tables p.bs s.rk.toList) ∧
    (∀ p, s.CompletesNext → s.pend = some p → p.op = .decrypt →
      t.dout = transform s.cfg.tables p.bs s.rk.toList.reverse) ∧
    (¬s.ResetsNext → (∀ p, s.CompletesNext → s.pend = some p → p.op = .ksched) → t.dout = s.dout)

/-- What changes an entry of `RK` (from R35). The cycles of the reference datapath write entries that are not valid
(R131; that they are events is the model's choice, notes/assumptions/4.md), which is why the last part speaks of valid
entries and takes the invariant as a premise. -/
def Obligations.RoundKeysHaveTheseWriters : Prop :=
  ∀ s t : State, s.Inv → step s = .next t →
    (∀ p, s.CompletesNext → s.pend = some p → p.op = .ksched →
      ∀ j : BitVec 4, rkEntry t.rk j = roundKeyOf s.cfg.tables p.ks j.toNat) ∧
    (∀ v, s.StoresNext v → ∀ j : BitVec 4, rkEntry t.rk j = if j = s.rkidx then v else rkEntry s.rk j) ∧
    (¬s.ResetsNext → (∀ v, ¬s.StoresNext v) → (∀ p, s.CompletesNext → s.pend = some p → p.op ≠ .ksched) →
      ∀ j : BitVec 4, s.rkValid.getLsbD j.toNat = true → rkEntry t.rk j = rkEntry s.rk j)

/-- What writes the host's registers (from R24, R25, R33): `KEY`, `DIN` and `RKIDX` change by a write of their own
offset, also while busy, and by reset, and by nothing else. -/
def Obligations.HostRegistersChangeOnlyByTheirWrite : Prop :=
  ∀ s t : State, step s = .next t →
    (s.ResetsNext → t.key = 0#64 ∧ t.din = 0#64 ∧ t.rkidx = 0#4) ∧
    (∀ x, s.WritesNext offsetKey x → t.key = x) ∧ (∀ x, s.WritesNext offsetDin x → t.din = x) ∧
    (∀ x, s.WritesNext offsetRkidx x → t.rkidx = x.extractLsb' 0 4) ∧
    (¬s.ResetsNext → (∀ x, ¬s.WritesNext offsetKey x) → t.key = s.key) ∧
    (¬s.ResetsNext → (∀ x, ¬s.WritesNext offsetDin x) → t.din = s.din) ∧
    (¬s.ResetsNext → (∀ x, ¬s.WritesNext offsetRkidx x) → t.rkidx = s.rkidx)

/-- What writes `ERR` (from R31, and the spec's inference in R205): every write to `CMD` and to `RKDATA` sets `ERR`:
to NONE when it is carried out, else to a code; and nothing else but reset writes `ERR`. -/
def Obligations.ErrReportsTheLatestCheckedWrite : Prop :=
  ∀ s t : State, step s = .next t →
    (s.ResetsNext → t.err = .none) ∧
    (∀ x, s.WritesNext offsetCmd x → (t.err = .none ↔ ∃ op : Command, x = op.word ∧ s.AcceptsNext op)) ∧
    (∀ x, s.WritesNext offsetRkdata x → (t.err = .none ↔ ∃ v : RoundKey, x = v.setWidth 64 ∧ s.StoresNext v)) ∧
    (¬s.ResetsNext → (∀ x, ¬s.WritesNext offsetCmd x) → (∀ x, ¬s.WritesNext offsetRkdata x) → t.err = s.err)

/-- No step changes the tables (from R101), or any other parameter (notes/assumptions/3.md). -/
def Obligations.ParametersNeverChange : Prop :=
  ∀ s t : State, step s = .next t → t.cfg = s.cfg

/-- No rule of the model depends on `T_KS` or `T_XF` (from R6, R236; notes/assumptions/10.md). -/
def Obligations.LatencyParametersAreNeverRead : Prop :=
  ∀ (s t : State) (a b : Nat), step s = .next t →
    step { s with cfg := { s.cfg with tKs := a, tXf := b } } =
      .next { t with cfg := { t.cfg with tKs := a, tXf := b } }

/-! Invariants and runs. -/

/-- The state after reset meets the invariant, and its datapath is on course, since no command is in flight. -/
def Obligations.ResetMeetsTheInvariant : Prop :=
  State.reset.Inv ∧ State.reset.DatapathOnCourse State.reset.cfg.tables

/-- Every step keeps the invariant: `BUSY = 1 ⇔ PEND ≠ none` (which the spec infers in spec/10_state.md section 5),
never busy and done, `ROUND ≤ 16`, and the valid bits fit the command in flight. -/
def Obligations.EveryStepKeepsTheInvariant : Prop :=
  ∀ s t : State, s.Inv → step s = .next t → t.Inv

/-- Every step keeps the reference datapath of R130, R131, R155 and R156 on course (the model's reading of it is
notes/assumptions/4.md and 5.md). -/
def Obligations.EveryStepKeepsTheDatapathOnCourse : Prop :=
  ∀ s t : State, s.Inv → s.DatapathOnCourse s.cfg.tables → step s = .next t → t.DatapathOnCourse t.cfg.tables

/-- When `ROUND = 16`, the datapath holds what the completion step commits (the spec's inference in R132 and R157). -/
def Obligations.DatapathHoldsTheCommittedResult : Prop :=
  ∀ (s : State) (p : Pending), s.DatapathOnCourse s.cfg.tables → s.pend = some p → s.round = 16#5 →
    (p.op = .ksched → s.rk = deriveRoundKeys s.cfg.tables p.ks) ∧
    (p.op = .encrypt →
      permute 64 s.cfg.tables.fp (s.r ++ s.l) = transform s.cfg.tables p.bs s.rk.toList) ∧
    (p.op = .decrypt →
      permute 64 s.cfg.tables.fp (s.r ++ s.l) = transform s.cfg.tables p.bs s.rk.toList.reverse)

/-- From a state that meets the invariant (from R202; the one fault is notes/assumptions/7.md) no step faults or is
refused: an accepted command always completes. -/
def Obligations.NoStepStopsUnderTheInvariant : Prop :=
  ∀ s : State, s.Inv → ∃ t, step s = .next t

/-- What the spec calls unobservable (spec/93_implementation_defined.md I4, I5): two machines that differ only in
entries that are not valid, in the halves and in the round counter answer alike for ever. -/
def Obligations.NothingObservedDependsOnHiddenState : Prop :=
  ∀ s t s' : State, s.Inv → s.LooksLike t → step s = .next s' → ∃ t', step t = .next t' ∧ s'.LooksLike t'

/-- A cycle of the reference datapath changes nothing a host can tell (that cycles are events of the script is
the model's choice of notes/assumptions/4.md). -/
def Obligations.DatapathCyclesAreInvisible : Prop :=
  ∀ s : State, s.Inv → s.script.head? = some .round →
    ∃ t, step s = .next t ∧ t.LooksLike s.afterEvent

/-- Whatever the order of events, a run ends (from R236, R246; the order of events is the script of
notes/assumptions/1.md): once its events are taken and a command still in flight has
completed, the host has made its last access and `BUSY = 0`. -/
def Obligations.EveryRunFinishes : Prop :=
  ∀ s : State, s.Inv → ∃ t, core.run (s.script.length + 1) s = .next t ∧ t.Finished

/-- Encrypting with a key (the spec's inference in spec/42_feistel.md section 3): KSCHED, its completion, a block
written, ENCRYPT or DECRYPT, its completion: `DOUT` is the block under the key's round keys, in ascending or descending
order. Between them may come any number of events that leave `CMD`, `RKDATA` and `DIN` alone (the events are the
script of notes/assumptions/1.md). -/
def Obligations.ScheduleThenTransformIsTheCipher : Prop :=
  ∀ (s : State) (op : Command) (block : Word64) (before between after pending rest : List Event),
    op ≠ .ksched → s.busy = false → s.cfg.checkKeyParity = false ∨ parityOk s.key = true →
    (∀ e ∈ before ++ between ++ after ++ pending, e.quiet = true) →
    s.script =
      .access (busWord .write offsetCmd 1#64) :: before ++ .completion :: between ++
      .access (busWord .write offsetDin block) :: after ++ .access (busWord .write offsetCmd op.word) :: pending ++
      .completion :: rest →
    ∃ t, core.run (before.length + between.length + after.length + pending.length + 5) s = .next t ∧
      t.script = rest ∧ t.busy = false ∧ t.done = true ∧ t.err = .none ∧
      t.dout = transform s.cfg.tables block (keysInOrder op (deriveRoundKeys s.cfg.tables s.key))

/-! Tables and functions (spec/40_tables.md, spec/41_key_schedule.md, spec/42_feistel.md). The printed tables are
general knowledge (notes/assumptions/3.md), and the spec marks these properties of them as its own inferences. -/

/-- FP is the inverse of IP, and both are permutations of 1..64. -/
def Obligations.FinalPermutationInvertsTheInitial : Prop :=
  (∀ v : Word64, permute 64 standardTables.fp (permute 64 standardTables.ip v) = v) ∧
  (∀ v : Word64, permute 64 standardTables.ip (permute 64 standardTables.fp v) = v) ∧
  standardTables.ip.Perm (List.range' 1 64) ∧ standardTables.fp.Perm (List.range' 1 64)

/-- PC-1 names every position but the parity positions exactly once, so the round keys do not depend on the parity
bits. -/
def Obligations.ParityBitsReachNoRoundKey : Prop :=
  (standardTables.pc1c ++ standardTables.pc1d).Perm ((List.range' 1 64).filter fun p => p % 8 ≠ 0) ∧
  ∀ key key' : Word64, (∀ i < 64, i % 8 ≠ 7 → key.getMsbD i = key'.getMsbD i) →
    deriveRoundKeys standardTables key = deriveRoundKeys standardTables key'

/-- The positions PC-2 names and omits, and which half each of its halves draws on. -/
def Obligations.CompressionOmitsTheseEight : Prop :=
  standardTables.pc2.Nodup ∧ standardTables.pc2.length = 48 ∧
  (List.range' 1 56).filter (fun p => !standardTables.pc2.contains p) = [9, 18, 22, 25, 35, 38, 43, 54] ∧
  (∀ p ∈ standardTables.pc2.take 24, 1 ≤ p ∧ p ≤ 28) ∧ ∀ p ∈ standardTables.pc2.drop 24, 29 ≤ p ∧ p ≤ 56

/-- Each row of each S-box is a permutation of 0..15, so a look-up is a bijection of the column bits. -/
def Obligations.SboxRowsAreBijections : Prop :=
  (∀ box ∈ standardTables.sboxes, ∀ row ∈ box, row.Perm (List.range 16)) ∧
  ∀ box ∈ standardTables.sboxes, ∀ g h : BitVec 6, sboxRow g = sboxRow h → sbox box g = sbox box h → g = h

/-- A look-up's row is the first bit then the last bit of the group, its column the four inner bits with the first one
high, and its value comes out most significant bit first; and group `j` of the substitution is the look-up of DES
indices `6j` to `6j+5` in box `S(j+1)`. -/
def Obligations.SubstitutionWorksGroupByGroup : Prop :=
  (∀ (box : List (List Nat)) (g : BitVec 6) (entry : Nat),
    entry = (box.getD (2 * (g.getLsbD 5).toNat + (g.getLsbD 0).toNat) []).getD
      (8 * (g.getLsbD 4).toNat + 4 * (g.getLsbD 3).toNat + 2 * (g.getLsbD 2).toNat + (g.getLsbD 1).toNat) 0 →
    sbox box g = BitVec.ofNat 4 entry ∧ ∀ b < 4, (sbox box g).getMsbD b = entry.testBit (3 - b)) ∧
  ∀ (boxes : List (List (List Nat))) (x : BitVec 48), ∀ j < 8,
    (substitute boxes x).extractLsb' (28 - 4 * j) 4 = sbox (boxes.getD j []) (x.extractLsb' (42 - 6 * j) 6)

/-- The shifts total 28, so after sixteen rounds the halves are back where PC-1 put them. -/
def Obligations.HalvesReturnAfterSixteenRounds : Prop :=
  standardTables.shifts.sum = 28 ∧
  ∀ key : Word64, keyHalves standardTables key 16 =
    (permute 28 standardTables.pc1c key, permute 28 standardTables.pc1d key)

/-- Every round-key bit is a copy of one key bit at a fixed place that is no parity position, the places of one
round key distinct; and what follows. -/
def Obligations.RoundKeysCopyKeyBits : Prop :=
  (∃ place : Nat → Nat → Nat, ∀ i < 16,
    (∀ b < 48, place i b < 64 ∧ place i b % 8 ≠ 7 ∧
      ∀ key : Word64, (roundKeyOf standardTables key i).getMsbD b = key.getMsbD (place i b)) ∧
    ∀ b < 48, ∀ b' < 48, place i b = place i b' → b = b') ∧
  (∀ i < 16, roundKeyOf standardTables 0x0000000000000000#64 i = 0x000000000000#48 ∧
    roundKeyOf standardTables 0xFFFFFFFFFFFFFFFF#64 i = 0xFFFFFFFFFFFF#48) ∧
  (∀ key parity : Word64, (∀ i < 64, i % 8 ≠ 7 → parity.getMsbD i = false) → ∀ i < 16,
    roundKeyOf standardTables (key ^^^ parity) i = roundKeyOf standardTables key i) ∧
  (∀ key : Word64, ∀ i < 16, roundKeyOf standardTables (~~~key) i = ~~~roundKeyOf standardTables key i) ∧
  ∀ key ∈ [0x0101010101010101#64, 0xFEFEFEFEFEFEFEFE#64, 0xE0E0E0E0F1F1F1F1#64, 0x1F1F1F1F0E0E0E0E#64],
    ∀ i < 16, ∀ i' < 16, roundKeyOf standardTables key i = roundKeyOf standardTables key i'

/-- The transform with the round keys reversed undoes the transform, for every block and every sixteen round
keys. -/
def Obligations.ReversedKeysUndoTheTransform : Prop :=
  ∀ (block : Word64) (keys : RoundKeyFile),
    transform standardTables (transform standardTables block keys.toList) keys.toList.reverse = block

/-- Complementation, for any round keys and for a key's own; and with equal round keys ENCRYPT and DECRYPT are the
same involution. -/
def Obligations.TransformComplementsAndInverts : Prop :=
  (∀ (block : Word64) (keys : RoundKeyFile),
    transform standardTables (~~~block) (keys.toList.map fun k => ~~~k) =
      ~~~transform standardTables block keys.toList) ∧
  (∀ block key : Word64,
    transform standardTables (~~~block) (deriveRoundKeys standardTables (~~~key)).toList =
      ~~~transform standardTables block (deriveRoundKeys standardTables key).toList) ∧
  ∀ (block : Word64) (keys : RoundKeyFile), (∀ i j : BitVec 4, rkEntry keys i = rkEntry keys j) →
    transform standardTables block keys.toList = transform standardTables block keys.toList.reverse ∧
    transform standardTables (transform standardTables block keys.toList) keys.toList = block

/-! The window (spec/20_memory.md). -/

/-- Where the window is (from R51; the base is the opaque constant of notes/assumptions/8.md): DESCORE sees the offset
of a host address from `DESCORE_BASE`, and receives nothing outside the window's 64 bytes. -/
def Obligations.WindowStartsAtTheBase : Prop :=
  (∀ (address : Nat) (offset : Offset),
    windowOffset address = some offset ↔ address = Config.descoreBase + offset.toNat) ∧
  ∀ address : Nat, windowOffset address = none ↔ address < Config.descoreBase ∨ Config.descoreBase + 64 ≤ address
end

