-- ==== Sys2Proof/Laws/Bits.lean ====
section
/-! SUPPORT. Sys2Proof/Laws/Bits.lean: one lemma per operator of Machine/Bits.lean, in DES indices (`getMsbD`), and the
equations of the key schedule and the transform. -/

namespace Sys2Proof.Machine

/-- Appending one bit at the right keeps the DES indices of a word that has room, and puts the bit after them. -/
theorem getMsbD_foldl_shiftConcat {n m : Nat} (v : BitVec n) (t : List Nat) (out : BitVec m) (k : Nat)
    (room : k + t.length = m) (high : ∀ i, k ≤ i → out.getLsbD i = false) (i : Nat) :
    (t.foldl (fun o p => o.shiftConcat (v.getMsbD (p - 1))) out).getLsbD i =
      if i < t.length then v.getMsbD (t.getD (t.length - 1 - i) 0 - 1) else out.getLsbD (i - t.length) := by
  induction t generalizing out k with
  | nil => simp
  | cons p t ih =>
    rw [List.foldl_cons, ih _ (k + 1) (by simpa [Nat.add_assoc, Nat.add_comm 1] using room)]
    · by_cases below : i < t.length
      · have next : t.length - i = (t.length - 1 - i) + 1 := by omega
        have inside : i < t.length + 1 := by omega
        simp [below, next, inside]
      · by_cases here : i = t.length
        · subst here
          simp only [List.length_cons] at room
          have room : 0 < m := by omega
          simp [room]
        · have above : ¬ i < t.length + 1 := by omega
          have shape : i - t.length ≠ 0 := by omega
          have pred : i - t.length - 1 = i - (t.length + 1) := by omega
          rw [if_neg below, List.length_cons, if_neg above, BitVec.getLsbD_shiftConcat, if_neg shape, pred]
          by_cases fits : i - t.length < m
          · simp [fits]
          · rw [high _ (by simp only [List.length_cons] at room; omega)]
            simp
    · intro j past
      rw [BitVec.getLsbD_shiftConcat]
      have shape : j ≠ 0 := by omega
      simp only [shape, if_false]
      rw [high _ (by omega)]
      simp

/-- R100 in register bits: `out[m-1-i] = v[n - T[i]]`, for a table of the output's length. -/
theorem getLsbD_permute {n m : Nat} (t : List Nat) (v : BitVec n) (fits : t.length = m) (i : Nat) :
    (permute m t v).getLsbD i = (decide (i < m) && v.getMsbD (t.getD (m - 1 - i) 0 - 1)) := by
  subst fits
  rw [permute, getMsbD_foldl_shiftConcat v t 0#t.length 0 (by simp) (by simp)]
  by_cases inside : i < t.length <;> simp [inside]

/-- R100: `out⟨i⟩ = v⟨T[i] - 1⟩`, for a table of the output's length. -/
theorem getMsbD_permute {n m : Nat} (t : List Nat) (v : BitVec n) (fits : t.length = m) (i : Nat) :
    (permute m t v).getMsbD i = (decide (i < m) && v.getMsbD (t.getD i 0 - 1)) := by
  rw [BitVec.getMsbD, getLsbD_permute t v fits]
  by_cases inside : i < m
  · have back : m - 1 - (m - 1 - i) = i := by omega
    have bound : m - 1 - i < m := by omega
    simp [inside, back, bound]
  · simp [inside]

/-- R8: the bit at DES index `i` of a rotation by `s` comes from index `i + s`, and past the end from the front. -/
theorem getMsbD_rotl {n : Nat} (x : BitVec n) (s : Nat) (small : s < n) (i : Nat) :
    (rotl x s).getMsbD i = (decide (i < n) && x.getMsbD (if i + s < n then i + s else i + s - n)) := by
  by_cases inside : i < n
  · by_cases wraps : i + s < n
    · have low : n - 1 - i < n := by omega
      have up : s ≤ n - 1 - i := by omega
      have same : n - 1 - i - s = n - 1 - (i + s) := by omega
      have gone : n ≤ n - s + (n - 1 - i) := by omega
      simp only [rotl, BitVec.getMsbD, inside, wraps, if_true, BitVec.getLsbD_or, BitVec.getLsbD_shiftLeft,
        BitVec.getLsbD_ushiftRight, low, same, decide_true, Bool.true_and]
      simp [Nat.not_lt.mpr up, BitVec.getLsbD_of_ge x _ gone]
    · have low : n - 1 - i < n := by omega
      have down : n - 1 - i < s := by omega
      have same : n - s + (n - 1 - i) = n - 1 - (i + s - n) := by omega
      have bound : i + s - n < n := by omega
      simp only [rotl, BitVec.getMsbD, inside, wraps, if_false, BitVec.getLsbD_or, BitVec.getLsbD_shiftLeft,
        BitVec.getLsbD_ushiftRight, low, same, decide_true, Bool.true_and, bound]
      simp [down]
  · simp [BitVec.getMsbD, inside]

/-- R125: the halves before the first round. -/
theorem keyHalves_zero (t : Tables) (key : Word64) : keyHalves t key 0 = keyHalvesInitial t key := rfl

/-- R125: each round rotates the running halves. -/
theorem keyHalves_succ (t : Tables) (key : Word64) (n : Nat) :
    keyHalves t key (n + 1) = rotateHalves t n (keyHalves t key n) := rfl

/-- R125: entry `i` of the schedule. -/
@[simp] theorem getElem_deriveRoundKeys (t : Tables) (key : Word64) (i : Nat) (inside : i < 16) :
    (deriveRoundKeys t key)[i] = roundKeyOf t key i := by
  simp [deriveRoundKeys]

/-- R147: no key, no round. -/
@[simp] theorem feistelRounds_nil (t : Tables) (lr : Half × Half) : feistelRounds t lr [] = lr := rfl

/-- R147: the first key's round comes first. -/
@[simp] theorem feistelRounds_cons (t : Tables) (lr : Half × Half) (k : RoundKey) (ks : List RoundKey) :
    feistelRounds t lr (k :: ks) = feistelRounds t (feistelRound t lr k) ks := rfl

/-- R147: the keys of two lists, one after the other. -/
theorem feistelRounds_append (t : Tables) (lr : Half × Half) (ks js : List RoundKey) :
    feistelRounds t lr (ks ++ js) = feistelRounds t (feistelRounds t lr ks) js := by
  simp [feistelRounds]

end Sys2Proof.Machine
end

