-- ==== Sys2Proof/Laws/Decode.lean ====
section
/-! SUPPORT. Sys2Proof/Laws/Decode.lean: the fields of a bus-operation word, what a row of the table accepts, and the
decoder as one chain of conditions on the fields. -/

namespace Sys2Proof

/-- R70: where each bit of a word comes from. -/
theorem getLsbD_busWord (dir : Dir) (addr : Offset) (wdata : Word64) (i : Nat) :
    (busWord dir addr wdata).getLsbD i =
      if i < 64 then wdata.getLsbD i else if i - 64 < 6 then addr.getLsbD (i - 64) else dir.bit.getLsbD (i - 70) := by
  have outer : (busWord dir addr wdata).getLsbD i =
      if i < 64 then wdata.getLsbD i else (dir.bit ++ addr).getLsbD (i - 64) :=
    BitVec.getLsbD_append
  rw [outer, BitVec.getLsbD_append, Nat.sub_sub]

/-- The `dir` field of a word made of fields. -/
@[simp] theorem dirOf_busWord (dir : Dir) (addr : Offset) (wdata : Word64) : dirOf (busWord dir addr wdata) = dir := by
  rw [dirOf, getLsbD_busWord]
  cases dir <;> rfl

/-- The `addr` field of a word made of fields. -/
@[simp] theorem addrOf_busWord (dir : Dir) (addr : Offset) (wdata : Word64) :
    addrOf (busWord dir addr wdata) = addr := by
  apply BitVec.eq_of_getLsbD_eq
  intro i inside
  have high : ¬ 64 + i < 64 := by omega
  rw [addrOf, BitVec.getLsbD_extractLsb', getLsbD_busWord, if_neg high, Nat.add_sub_cancel_left, if_pos inside]
  simp [inside]

/-- The `wdata` field of a word made of fields. -/
@[simp] theorem wdataOf_busWord (dir : Dir) (addr : Offset) (wdata : Word64) :
    wdataOf (busWord dir addr wdata) = wdata := by
  apply BitVec.eq_of_getLsbD_eq
  intro i inside
  rw [wdataOf, BitVec.getLsbD_extractLsb', Nat.zero_add, getLsbD_busWord, if_pos inside]
  simp [inside]

/-- R70: a word is its three fields. -/
theorem busWord_fields (w : BusWord) : busWord (dirOf w) (addrOf w) (wdataOf w) = w := by
  apply BitVec.eq_of_getLsbD_eq
  intro i inside
  rw [getLsbD_busWord]
  by_cases low : i < 64
  · simp [wdataOf, low]
  · by_cases mid : i - 64 < 6
    · have sum : 64 + (i - 64) = i := by omega
      simp [addrOf, low, mid, sum]
    · have top : i = 70 := by omega
      subst top
      rw [if_neg low, if_neg mid, dirOf]
      cases w.getLsbD 70 <;> rfl

/-- Two words are equal exactly when their fields are. -/
theorem busWord_inj {d d' : Dir} {a a' : Offset} {x x' : Word64} :
    busWord d a x = busWord d' a' x' ↔ d = d' ∧ a = a' ∧ x = x' := by
  constructor
  · intro same
    exact ⟨by simpa using congrArg dirOf same, by simpa using congrArg addrOf same,
      by simpa using congrArg wdataOf same⟩
  · rintro ⟨rfl, rfl, rfl⟩
    rfl

/-- A mask of all 71 bits keeps the word. -/
theorem and_wholeMask (w : BusWord) : w &&& wholeMask = w := by
  have all : wholeMask = BitVec.allOnes 71 := by decide
  rw [all, BitVec.and_allOnes]

/-- The head mask keeps `dir` and `addr` and clears `wdata`. -/
theorem busWord_and_headMask (d : Dir) (a : Offset) (x : Word64) : busWord d a x &&& headMask = busWord d a 0#64 := by
  have mask : headMask = busWord .write (BitVec.allOnes 6) 0#64 := by decide
  apply BitVec.eq_of_getLsbD_eq
  intro i inside
  rw [mask, BitVec.getLsbD_and, getLsbD_busWord, getLsbD_busWord, getLsbD_busWord]
  by_cases low : i < 64
  · simp [low]
  · by_cases mid : i - 64 < 6
    · simp only [low, mid, if_false, if_true, BitVec.getLsbD_allOnes, decide_true, Bool.and_true]
    · have top : i = 70 := by omega
      subst top
      simp [Dir.bit]

/-- A row that fixes all bits accepts one word. -/
theorem accepts_whole (d d' : Dir) (a a' : Offset) (x x' : Word64) (build : BusWord → Instr) :
    OpcodeRow.accepts ⟨wholeMask, busWord d' a' x', build⟩ (busWord d a x) =
      decide (d = d' ∧ a = a' ∧ x = x') := by
  rw [OpcodeRow.accepts, and_wholeMask]
  exact decide_eq_decide.mpr busWord_inj

/-- A row that fixes `dir` and `addr` accepts by them alone. -/
theorem accepts_head (d d' : Dir) (a a' : Offset) (x : Word64) (build : BusWord → Instr) :
    OpcodeRow.accepts ⟨headMask, busWord d' a' 0#64, build⟩ (busWord d a x) = decide (d = d' ∧ a = a') := by
  rw [OpcodeRow.accepts, busWord_and_headMask]
  exact decide_eq_decide.mpr (by simp [busWord_inj])

/-- The last row accepts every word (R71). -/
@[simp] theorem accepts_busErrorRow (w : BusWord) : busErrorRow.accepts w = true := by
  simp [OpcodeRow.accepts, busErrorRow]

/-- R71: some row always matches. -/
theorem some_row_accepts (w : BusWord) : ∃ r ∈ opcodeTable, r.accepts w = true :=
  ⟨busErrorRow, by simp [opcodeTable], accepts_busErrorRow w⟩

/-- The first row's turn, then the rest of the table's. -/
theorem firstMatch_cons (r : OpcodeRow) (rows : List OpcodeRow) (w : BusWord) :
    firstMatch (r :: rows) w = if r.accepts w = true then r.build w else firstMatch rows w := rfl

/-- The table's `match` values, as fields. -/
theorem row_values :
    0x400000000000000001#71 = busWord .write 0x00#6 1#64 ∧ 0x400000000000000002#71 = busWord .write 0x00#6 2#64 ∧
    0x400000000000000003#71 = busWord .write 0x00#6 3#64 ∧ 0x400000000000000000#71 = busWord .write 0x00#6 0#64 ∧
    0x000000000000000000#71 = busWord .read 0x00#6 0#64 ∧ 0x080000000000000000#71 = busWord .read 0x08#6 0#64 ∧
    0x480000000000000000#71 = busWord .write 0x08#6 0#64 ∧ 0x100000000000000000#71 = busWord .read 0x10#6 0#64 ∧
    0x500000000000000000#71 = busWord .write 0x10#6 0#64 ∧ 0x180000000000000000#71 = busWord .read 0x18#6 0#64 ∧
    0x580000000000000000#71 = busWord .write 0x18#6 0#64 ∧ 0x200000000000000000#71 = busWord .read 0x20#6 0#64 ∧
    0x600000000000000000#71 = busWord .write 0x20#6 0#64 ∧ 0x280000000000000000#71 = busWord .read 0x28#6 0#64 ∧
    0x680000000000000000#71 = busWord .write 0x28#6 0#64 ∧ 0x300000000000000000#71 = busWord .read 0x30#6 0#64 ∧
    0x700000000000000000#71 = busWord .write 0x30#6 0#64 ∧ 0x380000000000000000#71 = busWord .read 0x38#6 0#64 ∧
    0x780000000000000000#71 = busWord .write 0x38#6 0#64 := by
  decide

/-- R80 row by row: the decoder as a chain of conditions on the fields, the first that holds deciding. -/
theorem decode_busWord (d : Dir) (a : Offset) (x : Word64) :
    decode (busWord d a x) =
      if d = .write ∧ a = 0x00#6 ∧ x = 1#64 then .ksched
      else if d = .write ∧ a = 0x00#6 ∧ x = 2#64 then .encrypt
      else if d = .write ∧ a = 0x00#6 ∧ x = 3#64 then .decrypt
      else if d = .write ∧ a = 0x00#6 then .cmdIllegal x
      else if d = .read ∧ a = 0x00#6 then .rdCmd
      else if d = .read ∧ a = 0x08#6 then .rdStatus
      else if d = .write ∧ a = 0x08#6 then .wrStatus x
      else if d = .read ∧ a = 0x10#6 then .rdKey
      else if d = .write ∧ a = 0x10#6 then .wrKey x
      else if d = .read ∧ a = 0x18#6 then .rdDin
      else if d = .write ∧ a = 0x18#6 then .wrDin x
      else if d = .read ∧ a = 0x20#6 then .rdDout
      else if d = .write ∧ a = 0x20#6 then .wrDout x
      else if d = .read ∧ a = 0x28#6 then .rdRkidx
      else if d = .write ∧ a = 0x28#6 then .wrRkidx x
      else if d = .read ∧ a = 0x30#6 then .rdRkdata
      else if d = .write ∧ a = 0x30#6 then .wrRkdata x
      else if d = .read ∧ a = 0x38#6 then .rdRsvd38
      else if d = .write ∧ a = 0x38#6 then .wrRsvd38 x
      else .buserr d a x := by
  obtain ⟨v1, v2, v3, v4, v5, v6, v7, v8, v9, v10, v11, v12, v13, v14, v15, v16, v17, v18, v19⟩ := row_values
  simp only [decode, opcodeTable, commandRows, blockRows, roundKeyRows, List.cons_append, List.nil_append,
    firstMatch_cons, v1, v2, v3, v4, v5, v6, v7, v8, v9, v10, v11, v12, v13, v14, v15, v16, v17, v18, v19,
    accepts_whole, accepts_head, accepts_busErrorRow, decide_eq_true_eq, if_true, wdataOf_busWord]
  simp only [busErrorRow, dirOf_busWord, addrOf_busWord, wdataOf_busWord]

end Sys2Proof
end

