-- ==== Sys2Proof/Laws/RoundKeys.lean ====
section
/-! SUPPORT. Sys2Proof/Laws/RoundKeys.lean: reads and writes of the round-key file and of its valid bits, entry by
entry. -/

namespace Sys2Proof.Machine

/-- A read after a write of the file: the written entry, or what was there. -/
@[simp] theorem rkEntry_rkWithEntry (rk : RoundKeyFile) (i j : BitVec 4) (v : RoundKey) :
    rkEntry (rkWithEntry rk j v) i = if i = j then v else rkEntry rk i := by
  have same : j.toNat = i.toNat ↔ i = j := by rw [← BitVec.toNat_inj]; exact eq_comm
  simp [rkEntry, rkWithEntry, Vector.getElem_set, same]

/-- Entry `j` of a derived file (R125). -/
@[simp] theorem rkEntry_deriveRoundKeys (t : Tables) (key : Word64) (j : BitVec 4) :
    rkEntry (deriveRoundKeys t key) j = roundKeyOf t key j.toNat := by
  simp [rkEntry]

/-- Two files are equal when their entries are. -/
theorem roundKeyFile_ext {a b : RoundKeyFile} (same : ∀ j : BitVec 4, rkEntry a j = rkEntry b j) : a = b := by
  apply Vector.ext
  intro i inside
  simpa [rkEntry, Nat.mod_eq_of_lt inside] using same (BitVec.ofNat 4 i)

/-- The file as a list, entry by entry. -/
theorem getElem_toList_rk (rk : RoundKeyFile) (i : Nat) (inside : i < 16) :
    rk.toList[i]'(by simpa using inside) = rkEntry rk (BitVec.ofNat 4 i) := by
  simp [rkEntry, Nat.mod_eq_of_lt inside]

/-- Setting bit `j` of the valid bits sets that one and keeps the others. -/
@[simp] theorem rkValidBit_rkValidWith (valid : BitVec 16) (i j : BitVec 4) :
    rkValidBit (rkValidWith valid j) i = (rkValidBit valid i || decide (i = j)) := by
  have same : i.toNat = j.toNat ↔ i = j := BitVec.toNat_inj
  have inside : i.toNat < 16 := i.isLt
  simp [rkValidBit, rkValidWith, inside, same]

/-- With no valid bit set, no entry is valid. -/
@[simp] theorem rkValidBit_zero (j : BitVec 4) : rkValidBit 0#16 j = false := by simp [rkValidBit]

/-- With all valid bits set, every entry is valid. -/
@[simp] theorem rkValidBit_full (j : BitVec 4) : rkValidBit 0xFFFF#16 j = true := by
  have all : (0xFFFF#16) = BitVec.allOnes 16 := by decide
  have inside : j.toNat < 16 := j.isLt
  rw [rkValidBit, all, BitVec.getLsbD_allOnes]
  simpa using inside

end Sys2Proof.Machine
end

