-- ==== Sys2Proof/Laws/State.lean ====
section
/-! SUPPORT. Sys2Proof/Laws/State.lean: one lemma per field per update, so that no later proof unfolds a record
update. A field of `State` that is DESCORE's is reached through `toDevice`. -/

namespace Sys2Proof.Machine

section
variable (m : Device) (v : Word64)
@[simp] theorem Device.setKey_key : (m.setKey v).key = v := rfl
@[simp] theorem Device.setKey_din : (m.setKey v).din = m.din := rfl
@[simp] theorem Device.setKey_dout : (m.setKey v).dout = m.dout := rfl
@[simp] theorem Device.setKey_rkidx : (m.setKey v).rkidx = m.rkidx := rfl
@[simp] theorem Device.setKey_rk : (m.setKey v).rk = m.rk := rfl
@[simp] theorem Device.setKey_rkValid : (m.setKey v).rkValid = m.rkValid := rfl
@[simp] theorem Device.setKey_busy : (m.setKey v).busy = m.busy := rfl
@[simp] theorem Device.setKey_done : (m.setKey v).done = m.done := rfl
@[simp] theorem Device.setKey_err : (m.setKey v).err = m.err := rfl
@[simp] theorem Device.setKey_pend : (m.setKey v).pend = m.pend := rfl
@[simp] theorem Device.setKey_c : (m.setKey v).c = m.c := rfl
@[simp] theorem Device.setKey_d : (m.setKey v).d = m.d := rfl
@[simp] theorem Device.setKey_l : (m.setKey v).l = m.l := rfl
@[simp] theorem Device.setKey_r : (m.setKey v).r = m.r := rfl
@[simp] theorem Device.setKey_round : (m.setKey v).round = m.round := rfl
end

section
variable (m : Device) (v : Word64)
@[simp] theorem Device.setDin_key : (m.setDin v).key = m.key := rfl
@[simp] theorem Device.setDin_din : (m.setDin v).din = v := rfl
@[simp] theorem Device.setDin_dout : (m.setDin v).dout = m.dout := rfl
@[simp] theorem Device.setDin_rkidx : (m.setDin v).rkidx = m.rkidx := rfl
@[simp] theorem Device.setDin_rk : (m.setDin v).rk = m.rk := rfl
@[simp] theorem Device.setDin_rkValid : (m.setDin v).rkValid = m.rkValid := rfl
@[simp] theorem Device.setDin_busy : (m.setDin v).busy = m.busy := rfl
@[simp] theorem Device.setDin_done : (m.setDin v).done = m.done := rfl
@[simp] theorem Device.setDin_err : (m.setDin v).err = m.err := rfl
@[simp] theorem Device.setDin_pend : (m.setDin v).pend = m.pend := rfl
@[simp] theorem Device.setDin_c : (m.setDin v).c = m.c := rfl
@[simp] theorem Device.setDin_d : (m.setDin v).d = m.d := rfl
@[simp] theorem Device.setDin_l : (m.setDin v).l = m.l := rfl
@[simp] theorem Device.setDin_r : (m.setDin v).r = m.r := rfl
@[simp] theorem Device.setDin_round : (m.setDin v).round = m.round := rfl
end

section
variable (m : Device) (v : BitVec 4)
@[simp] theorem Device.setRkidx_key : (m.setRkidx v).key = m.key := rfl
@[simp] theorem Device.setRkidx_din : (m.setRkidx v).din = m.din := rfl
@[simp] theorem Device.setRkidx_dout : (m.setRkidx v).dout = m.dout := rfl
@[simp] theorem Device.setRkidx_rkidx : (m.setRkidx v).rkidx = v := rfl
@[simp] theorem Device.setRkidx_rk : (m.setRkidx v).rk = m.rk := rfl
@[simp] theorem Device.setRkidx_rkValid : (m.setRkidx v).rkValid = m.rkValid := rfl
@[simp] theorem Device.setRkidx_busy : (m.setRkidx v).busy = m.busy := rfl
@[simp] theorem Device.setRkidx_done : (m.setRkidx v).done = m.done := rfl
@[simp] theorem Device.setRkidx_err : (m.setRkidx v).err = m.err := rfl
@[simp] theorem Device.setRkidx_pend : (m.setRkidx v).pend = m.pend := rfl
@[simp] theorem Device.setRkidx_c : (m.setRkidx v).c = m.c := rfl
@[simp] theorem Device.setRkidx_d : (m.setRkidx v).d = m.d := rfl
@[simp] theorem Device.setRkidx_l : (m.setRkidx v).l = m.l := rfl
@[simp] theorem Device.setRkidx_r : (m.setRkidx v).r = m.r := rfl
@[simp] theorem Device.setRkidx_round : (m.setRkidx v).round = m.round := rfl
end

section
variable (m : Device) (v : RoundKey)
@[simp] theorem Device.storeRoundKey_key : (m.storeRoundKey v).key = m.key := rfl
@[simp] theorem Device.storeRoundKey_din : (m.storeRoundKey v).din = m.din := rfl
@[simp] theorem Device.storeRoundKey_dout : (m.storeRoundKey v).dout = m.dout := rfl
@[simp] theorem Device.storeRoundKey_rkidx : (m.storeRoundKey v).rkidx = m.rkidx := rfl
@[simp] theorem Device.storeRoundKey_rk : (m.storeRoundKey v).rk = rkWithEntry m.rk m.rkidx v := rfl
@[simp] theorem Device.storeRoundKey_rkValid : (m.storeRoundKey v).rkValid = rkValidWith m.rkValid m.rkidx := rfl
@[simp] theorem Device.storeRoundKey_busy : (m.storeRoundKey v).busy = m.busy := rfl
@[simp] theorem Device.storeRoundKey_done : (m.storeRoundKey v).done = m.done := rfl
@[simp] theorem Device.storeRoundKey_err : (m.storeRoundKey v).err = .none := rfl
@[simp] theorem Device.storeRoundKey_pend : (m.storeRoundKey v).pend = m.pend := rfl
@[simp] theorem Device.storeRoundKey_c : (m.storeRoundKey v).c = m.c := rfl
@[simp] theorem Device.storeRoundKey_d : (m.storeRoundKey v).d = m.d := rfl
@[simp] theorem Device.storeRoundKey_l : (m.storeRoundKey v).l = m.l := rfl
@[simp] theorem Device.storeRoundKey_r : (m.storeRoundKey v).r = m.r := rfl
@[simp] theorem Device.storeRoundKey_round : (m.storeRoundKey v).round = m.round := rfl
end

section
variable (m : Device) (code : ErrCode)
@[simp] theorem Device.raiseError_key : (m.raiseError code).key = m.key := rfl
@[simp] theorem Device.raiseError_din : (m.raiseError code).din = m.din := rfl
@[simp] theorem Device.raiseError_dout : (m.raiseError code).dout = m.dout := rfl
@[simp] theorem Device.raiseError_rkidx : (m.raiseError code).rkidx = m.rkidx := rfl
@[simp] theorem Device.raiseError_rk : (m.raiseError code).rk = m.rk := rfl
@[simp] theorem Device.raiseError_rkValid : (m.raiseError code).rkValid = m.rkValid := rfl
@[simp] theorem Device.raiseError_busy : (m.raiseError code).busy = m.busy := rfl
@[simp] theorem Device.raiseError_done : (m.raiseError code).done = m.done := rfl
@[simp] theorem Device.raiseError_err : (m.raiseError code).err = code := rfl
@[simp] theorem Device.raiseError_pend : (m.raiseError code).pend = m.pend := rfl
@[simp] theorem Device.raiseError_c : (m.raiseError code).c = m.c := rfl
@[simp] theorem Device.raiseError_d : (m.raiseError code).d = m.d := rfl
@[simp] theorem Device.raiseError_l : (m.raiseError code).l = m.l := rfl
@[simp] theorem Device.raiseError_r : (m.raiseError code).r = m.r := rfl
@[simp] theorem Device.raiseError_round : (m.raiseError code).round = m.round := rfl
end

section
variable (m : Device) (op : Command)
@[simp] theorem Device.startCommand_key : (m.startCommand op).key = m.key := rfl
@[simp] theorem Device.startCommand_din : (m.startCommand op).din = m.din := rfl
@[simp] theorem Device.startCommand_dout : (m.startCommand op).dout = m.dout := rfl
@[simp] theorem Device.startCommand_rkidx : (m.startCommand op).rkidx = m.rkidx := rfl
@[simp] theorem Device.startCommand_rk : (m.startCommand op).rk = m.rk := rfl
@[simp] theorem Device.startCommand_rkValid : (m.startCommand op).rkValid = m.rkValid := rfl
@[simp] theorem Device.startCommand_busy : (m.startCommand op).busy = true := rfl
@[simp] theorem Device.startCommand_done : (m.startCommand op).done = false := rfl
@[simp] theorem Device.startCommand_err : (m.startCommand op).err = .none := rfl
@[simp] theorem Device.startCommand_pend : (m.startCommand op).pend = some ⟨op, m.key, m.din⟩ := rfl
@[simp] theorem Device.startCommand_c : (m.startCommand op).c = m.c := rfl
@[simp] theorem Device.startCommand_d : (m.startCommand op).d = m.d := rfl
@[simp] theorem Device.startCommand_l : (m.startCommand op).l = m.l := rfl
@[simp] theorem Device.startCommand_r : (m.startCommand op).r = m.r := rfl
@[simp] theorem Device.startCommand_round : (m.startCommand op).round = m.round := rfl
end

section
variable (m : Device) (t : Tables)
@[simp] theorem Device.loadKeySchedule_key : (m.loadKeySchedule t).key = m.key := rfl
@[simp] theorem Device.loadKeySchedule_din : (m.loadKeySchedule t).din = m.din := rfl
@[simp] theorem Device.loadKeySchedule_dout : (m.loadKeySchedule t).dout = m.dout := rfl
@[simp] theorem Device.loadKeySchedule_rkidx : (m.loadKeySchedule t).rkidx = m.rkidx := rfl
@[simp] theorem Device.loadKeySchedule_rk : (m.loadKeySchedule t).rk = m.rk := rfl
@[simp] theorem Device.loadKeySchedule_rkValid : (m.loadKeySchedule t).rkValid = 0#16 := rfl
@[simp] theorem Device.loadKeySchedule_busy : (m.loadKeySchedule t).busy = m.busy := rfl
@[simp] theorem Device.loadKeySchedule_done : (m.loadKeySchedule t).done = m.done := rfl
@[simp] theorem Device.loadKeySchedule_err : (m.loadKeySchedule t).err = m.err := rfl
@[simp] theorem Device.loadKeySchedule_pend : (m.loadKeySchedule t).pend = m.pend := rfl
@[simp] theorem Device.loadKeySchedule_c : (m.loadKeySchedule t).c = (keyHalvesInitial t m.key).1 := rfl
@[simp] theorem Device.loadKeySchedule_d : (m.loadKeySchedule t).d = (keyHalvesInitial t m.key).2 := rfl
@[simp] theorem Device.loadKeySchedule_l : (m.loadKeySchedule t).l = m.l := rfl
@[simp] theorem Device.loadKeySchedule_r : (m.loadKeySchedule t).r = m.r := rfl
@[simp] theorem Device.loadKeySchedule_round : (m.loadKeySchedule t).round = 0#5 := rfl
end

section
variable (m : Device) (t : Tables)
@[simp] theorem Device.loadBlock_key : (m.loadBlock t).key = m.key := rfl
@[simp] theorem Device.loadBlock_din : (m.loadBlock t).din = m.din := rfl
@[simp] theorem Device.loadBlock_dout : (m.loadBlock t).dout = m.dout := rfl
@[simp] theorem Device.loadBlock_rkidx : (m.loadBlock t).rkidx = m.rkidx := rfl
@[simp] theorem Device.loadBlock_rk : (m.loadBlock t).rk = m.rk := rfl
@[simp] theorem Device.loadBlock_rkValid : (m.loadBlock t).rkValid = m.rkValid := rfl
@[simp] theorem Device.loadBlock_busy : (m.loadBlock t).busy = m.busy := rfl
@[simp] theorem Device.loadBlock_done : (m.loadBlock t).done = m.done := rfl
@[simp] theorem Device.loadBlock_err : (m.loadBlock t).err = m.err := rfl
@[simp] theorem Device.loadBlock_pend : (m.loadBlock t).pend = m.pend := rfl
@[simp] theorem Device.loadBlock_c : (m.loadBlock t).c = m.c := rfl
@[simp] theorem Device.loadBlock_d : (m.loadBlock t).d = m.d := rfl
@[simp] theorem Device.loadBlock_l : (m.loadBlock t).l = (initialHalves t m.din).1 := rfl
@[simp] theorem Device.loadBlock_r : (m.loadBlock t).r = (initialHalves t m.din).2 := rfl
@[simp] theorem Device.loadBlock_round : (m.loadBlock t).round = 0#5 := rfl
end

section
variable (m : Device) (t : Tables)
@[simp] theorem Device.keyRound_key : (m.keyRound t).key = m.key := rfl
@[simp] theorem Device.keyRound_din : (m.keyRound t).din = m.din := rfl
@[simp] theorem Device.keyRound_dout : (m.keyRound t).dout = m.dout := rfl
@[simp] theorem Device.keyRound_rkidx : (m.keyRound t).rkidx = m.rkidx := rfl
@[simp] theorem Device.keyRound_rk :
    (m.keyRound t).rk = rkWithEntry m.rk m.roundIndex (compressHalves t (rotateHalves t m.round.toNat (m.c, m.d))) :=
  rfl
@[simp] theorem Device.keyRound_rkValid : (m.keyRound t).rkValid = m.rkValid := rfl
@[simp] theorem Device.keyRound_busy : (m.keyRound t).busy = m.busy := rfl
@[simp] theorem Device.keyRound_done : (m.keyRound t).done = m.done := rfl
@[simp] theorem Device.keyRound_err : (m.keyRound t).err = m.err := rfl
@[simp] theorem Device.keyRound_pend : (m.keyRound t).pend = m.pend := rfl
@[simp] theorem Device.keyRound_c : (m.keyRound t).c = (rotateHalves t m.round.toNat (m.c, m.d)).1 := rfl
@[simp] theorem Device.keyRound_d : (m.keyRound t).d = (rotateHalves t m.round.toNat (m.c, m.d)).2 := rfl
@[simp] theorem Device.keyRound_l : (m.keyRound t).l = m.l := rfl
@[simp] theorem Device.keyRound_r : (m.keyRound t).r = m.r := rfl
@[simp] theorem Device.keyRound_round : (m.keyRound t).round = m.round + 1#5 := rfl
end

section
variable (m : Device) (t : Tables) (op : Command)
@[simp] theorem Device.blockRound_key : (m.blockRound t op).key = m.key := rfl
@[simp] theorem Device.blockRound_din : (m.blockRound t op).din = m.din := rfl
@[simp] theorem Device.blockRound_dout : (m.blockRound t op).dout = m.dout := rfl
@[simp] theorem Device.blockRound_rkidx : (m.blockRound t op).rkidx = m.rkidx := rfl
@[simp] theorem Device.blockRound_rk : (m.blockRound t op).rk = m.rk := rfl
@[simp] theorem Device.blockRound_rkValid : (m.blockRound t op).rkValid = m.rkValid := rfl
@[simp] theorem Device.blockRound_busy : (m.blockRound t op).busy = m.busy := rfl
@[simp] theorem Device.blockRound_done : (m.blockRound t op).done = m.done := rfl
@[simp] theorem Device.blockRound_err : (m.blockRound t op).err = m.err := rfl
@[simp] theorem Device.blockRound_pend : (m.blockRound t op).pend = m.pend := rfl
@[simp] theorem Device.blockRound_c : (m.blockRound t op).c = m.c := rfl
@[simp] theorem Device.blockRound_d : (m.blockRound t op).d = m.d := rfl
@[simp] theorem Device.blockRound_l :
    (m.blockRound t op).l = (feistelRound t (m.l, m.r) (rkEntry m.rk (m.roundKeyIndex op))).1 :=
  rfl
@[simp] theorem Device.blockRound_r :
    (m.blockRound t op).r = (feistelRound t (m.l, m.r) (rkEntry m.rk (m.roundKeyIndex op))).2 :=
  rfl
@[simp] theorem Device.blockRound_round : (m.blockRound t op).round = m.round + 1#5 := rfl
end

section
variable (m : Device) (t : Tables) (ks : Word64)
@[simp] theorem Device.commitRoundKeys_key : (m.commitRoundKeys t ks).key = m.key := rfl
@[simp] theorem Device.commitRoundKeys_din : (m.commitRoundKeys t ks).din = m.din := rfl
@[simp] theorem Device.commitRoundKeys_dout : (m.commitRoundKeys t ks).dout = m.dout := rfl
@[simp] theorem Device.commitRoundKeys_rkidx : (m.commitRoundKeys t ks).rkidx = m.rkidx := rfl
@[simp] theorem Device.commitRoundKeys_rk : (m.commitRoundKeys t ks).rk = deriveRoundKeys t ks := rfl
@[simp] theorem Device.commitRoundKeys_rkValid : (m.commitRoundKeys t ks).rkValid = 0xFFFF#16 := rfl
@[simp] theorem Device.commitRoundKeys_busy : (m.commitRoundKeys t ks).busy = m.busy := rfl
@[simp] theorem Device.commitRoundKeys_done : (m.commitRoundKeys t ks).done = m.done := rfl
@[simp] theorem Device.commitRoundKeys_err : (m.commitRoundKeys t ks).err = m.err := rfl
@[simp] theorem Device.commitRoundKeys_pend : (m.commitRoundKeys t ks).pend = m.pend := rfl
@[simp] theorem Device.commitRoundKeys_c : (m.commitRoundKeys t ks).c = (keyHalves t ks 16).1 := rfl
@[simp] theorem Device.commitRoundKeys_d : (m.commitRoundKeys t ks).d = (keyHalves t ks 16).2 := rfl
@[simp] theorem Device.commitRoundKeys_l : (m.commitRoundKeys t ks).l = m.l := rfl
@[simp] theorem Device.commitRoundKeys_r : (m.commitRoundKeys t ks).r = m.r := rfl
@[simp] theorem Device.commitRoundKeys_round : (m.commitRoundKeys t ks).round = 16#5 := rfl
end

section
variable (m : Device) (t : Tables) (op : Command) (bs : Word64)
@[simp] theorem Device.commitBlock_key : (m.commitBlock t op bs).key = m.key := rfl
@[simp] theorem Device.commitBlock_din : (m.commitBlock t op bs).din = m.din := rfl
@[simp] theorem Device.commitBlock_dout : (m.commitBlock t op bs).dout = transform t bs (keysInOrder op m.rk) := rfl
@[simp] theorem Device.commitBlock_rkidx : (m.commitBlock t op bs).rkidx = m.rkidx := rfl
@[simp] theorem Device.commitBlock_rk : (m.commitBlock t op bs).rk = m.rk := rfl
@[simp] theorem Device.commitBlock_rkValid : (m.commitBlock t op bs).rkValid = m.rkValid := rfl
@[simp] theorem Device.commitBlock_busy : (m.commitBlock t op bs).busy = m.busy := rfl
@[simp] theorem Device.commitBlock_done : (m.commitBlock t op bs).done = m.done := rfl
@[simp] theorem Device.commitBlock_err : (m.commitBlock t op bs).err = m.err := rfl
@[simp] theorem Device.commitBlock_pend : (m.commitBlock t op bs).pend = m.pend := rfl
@[simp] theorem Device.commitBlock_c : (m.commitBlock t op bs).c = m.c := rfl
@[simp] theorem Device.commitBlock_d : (m.commitBlock t op bs).d = m.d := rfl
@[simp] theorem Device.commitBlock_l :
    (m.commitBlock t op bs).l = (feistelRounds t (initialHalves t bs) (keysInOrder op m.rk)).1 :=
  rfl
@[simp] theorem Device.commitBlock_r :
    (m.commitBlock t op bs).r = (feistelRounds t (initialHalves t bs) (keysInOrder op m.rk)).2 :=
  rfl
@[simp] theorem Device.commitBlock_round : (m.commitBlock t op bs).round = 16#5 := rfl
end

section
variable (m : Device)
@[simp] theorem Device.finishCommand_key : (m.finishCommand).key = m.key := rfl
@[simp] theorem Device.finishCommand_din : (m.finishCommand).din = m.din := rfl
@[simp] theorem Device.finishCommand_dout : (m.finishCommand).dout = m.dout := rfl
@[simp] theorem Device.finishCommand_rkidx : (m.finishCommand).rkidx = m.rkidx := rfl
@[simp] theorem Device.finishCommand_rk : (m.finishCommand).rk = m.rk := rfl
@[simp] theorem Device.finishCommand_rkValid : (m.finishCommand).rkValid = m.rkValid := rfl
@[simp] theorem Device.finishCommand_busy : (m.finishCommand).busy = false := rfl
@[simp] theorem Device.finishCommand_done : (m.finishCommand).done = true := rfl
@[simp] theorem Device.finishCommand_err : (m.finishCommand).err = m.err := rfl
@[simp] theorem Device.finishCommand_pend : (m.finishCommand).pend = none := rfl
@[simp] theorem Device.finishCommand_c : (m.finishCommand).c = m.c := rfl
@[simp] theorem Device.finishCommand_d : (m.finishCommand).d = m.d := rfl
@[simp] theorem Device.finishCommand_l : (m.finishCommand).l = m.l := rfl
@[simp] theorem Device.finishCommand_r : (m.finishCommand).r = m.r := rfl
@[simp] theorem Device.finishCommand_round : (m.finishCommand).round = m.round := rfl
end

section
variable (s : State) (f : Device → Device)
@[simp] theorem State.onDevice_toDevice : (s.onDevice f).toDevice = f s.toDevice := rfl
@[simp] theorem State.onDevice_cfg : (s.onDevice f).cfg = s.cfg := rfl
@[simp] theorem State.onDevice_script : (s.onDevice f).script = s.script := rfl
@[simp] theorem State.onDevice_reply : (s.onDevice f).reply = s.reply := rfl
@[simp] theorem State.onDevice_busErrors : (s.onDevice f).busErrors = s.busErrors := rfl
end

section
variable (s : State)
@[simp] theorem State.answerWrite_toDevice : (s.answerWrite).toDevice = s.toDevice := rfl
@[simp] theorem State.answerWrite_cfg : (s.answerWrite).cfg = s.cfg := rfl
@[simp] theorem State.answerWrite_script : (s.answerWrite).script = s.script := rfl
@[simp] theorem State.answerWrite_reply : (s.answerWrite).reply = some ⟨none, false⟩ := rfl
@[simp] theorem State.answerWrite_busErrors : (s.answerWrite).busErrors = s.busErrors := rfl
end

section
variable (s : State) (v : Word64)
@[simp] theorem State.answerRead_toDevice : (s.answerRead v).toDevice = s.toDevice := rfl
@[simp] theorem State.answerRead_cfg : (s.answerRead v).cfg = s.cfg := rfl
@[simp] theorem State.answerRead_script : (s.answerRead v).script = s.script := rfl
@[simp] theorem State.answerRead_reply : (s.answerRead v).reply = some ⟨some v, false⟩ := rfl
@[simp] theorem State.answerRead_busErrors : (s.answerRead v).busErrors = s.busErrors := rfl
end

section
variable (s : State) (dir : Dir) (addr : Offset)
@[simp] theorem State.raiseBusError_toDevice : (s.raiseBusError dir addr).toDevice = s.toDevice := rfl
@[simp] theorem State.raiseBusError_cfg : (s.raiseBusError dir addr).cfg = s.cfg := rfl
@[simp] theorem State.raiseBusError_script : (s.raiseBusError dir addr).script = s.script := rfl
@[simp] theorem State.raiseBusError_reply : (s.raiseBusError dir addr).reply = some (busErrorReply dir) := rfl
@[simp] theorem State.raiseBusError_busErrors :
    (s.raiseBusError dir addr).busErrors = s.busErrors ++ [⟨dir, addr⟩] :=
  rfl
end

section
variable (s : State) (op : Option Command)
@[simp] theorem State.writeCmd_toDevice :
    (s.writeCmd op).toDevice = s.toDevice.issue s.cfg.tables op (s.toDevice.commandCheck s.cfg.checkKeyParity op) :=
  rfl
@[simp] theorem State.writeCmd_cfg : (s.writeCmd op).cfg = s.cfg := rfl
@[simp] theorem State.writeCmd_script : (s.writeCmd op).script = s.script := rfl
@[simp] theorem State.writeCmd_reply : (s.writeCmd op).reply = some ⟨none, false⟩ := rfl
@[simp] theorem State.writeCmd_busErrors : (s.writeCmd op).busErrors = s.busErrors := rfl
end

section
variable (s : State) (nbits w : Nat)
@[simp] theorem State.withFetchWord_toDevice : (s.withFetchWord nbits w).toDevice = s.toDevice := rfl
@[simp] theorem State.withFetchWord_cfg : (s.withFetchWord nbits w).cfg = s.cfg := rfl
@[simp] theorem State.withFetchWord_script :
    (s.withFetchWord nbits w).script = .access (BitVec.ofNat 71 (w % 2 ^ nbits)) :: s.script :=
  rfl
@[simp] theorem State.withFetchWord_reply : (s.withFetchWord nbits w).reply = s.reply := rfl
@[simp] theorem State.withFetchWord_busErrors : (s.withFetchWord nbits w).busErrors = s.busErrors := rfl
end

end Sys2Proof.Machine
end

