-- ==== Sys2Proof/Laws/Ops.lean ====
section
/-! SUPPORT. Sys2Proof/Laws/Ops.lean: what each shared operation can do, said once. -/

namespace Sys2Proof.Machine

/-! The checks of R203. -/

/-- A `CMD` write passes its check exactly when `BUSY = 0` and it carries a command whose own condition holds. -/
theorem commandCheck_eq_none_iff (parityChecked : Bool) (op : Option Command) (m : Device) :
    m.commandCheck parityChecked op = .none ↔
      m.busy = false ∧
        ((op = some .ksched ∧ (parityChecked = false ∨ parityOk m.key = true)) ∨
          ((op = some .encrypt ∨ op = some .decrypt) ∧ m.rkReady = true)) := by
  unfold Device.commandCheck
  cases m.busy <;> rcases op with _ | _ | _ | _ <;> cases parityChecked <;> cases parityOk m.key <;>
    cases m.rkReady <;> simp

/-- While busy every `CMD` write is turned away with BUSY. -/
theorem commandCheck_of_busy {m : Device} (busy : m.busy = true) (parityChecked : Bool) (op : Option Command) :
    m.commandCheck parityChecked op = .busy := by
  simp [Device.commandCheck, busy]

/-- An `RKDATA` write passes its check exactly when `BUSY = 0` and its upper 16 bits are 0. -/
theorem rkdataCheck_eq_none_iff (wdata : Word64) (m : Device) :
    m.rkdataCheck wdata = .none ↔ m.busy = false ∧ roundKeyExcess wdata = 0#16 := by
  unfold Device.rkdataCheck
  cases m.busy
  · by_cases fits : roundKeyExcess wdata = 0#16 <;> simp [fits]
  · simp

/-- While busy every `RKDATA` write is turned away with BUSY. -/
theorem rkdataCheck_of_busy {m : Device} (busy : m.busy = true) (wdata : Word64) :
    m.rkdataCheck wdata = .busy := by
  simp [Device.rkdataCheck, busy]

/-! Acceptance. -/

/-- KSCHED accepted. -/
theorem accept_ksched (t : Tables) (m : Device) :
    m.accept t .ksched = (m.loadKeySchedule t).startCommand .ksched := rfl

/-- A block command accepted. -/
theorem accept_block (t : Tables) (m : Device) {op : Command} (block : op ≠ .ksched) :
    m.accept t op = (m.loadBlock t).startCommand op := by
  cases op
  · exact absurd rfl block
  · rfl
  · rfl

/-- What acceptance leaves alone and what it sets, whichever command is accepted. -/
theorem accept_common (t : Tables) (op : Command) (m : Device) :
    (m.accept t op).key = m.key ∧ (m.accept t op).din = m.din ∧ (m.accept t op).dout = m.dout ∧
    (m.accept t op).rkidx = m.rkidx ∧ (m.accept t op).rk = m.rk ∧ (m.accept t op).busy = true ∧
    (m.accept t op).done = false ∧ (m.accept t op).err = .none ∧
    (m.accept t op).pend = some ⟨op, m.key, m.din⟩ ∧ (m.accept t op).round = 0#5 ∧
    (m.accept t op).rkValid = if op = .ksched then 0#16 else m.rkValid := by
  cases op <;> simp [Device.accept]

/-- A checked `CMD` write: accepted with its command, or turned away with the code and nothing else. -/
theorem writeCmd_cases (s : State) (op : Option Command) :
    (∃ command, op = some command ∧ s.toDevice.commandCheck s.cfg.checkKeyParity op = .none ∧
        (s.writeCmd op).toDevice = s.toDevice.accept s.cfg.tables command) ∨
    (∃ code, code ≠ .none ∧ s.toDevice.commandCheck s.cfg.checkKeyParity op = code ∧
        (s.writeCmd op).toDevice = s.toDevice.raiseError code) := by
  rw [State.writeCmd_toDevice]
  cases check : s.toDevice.commandCheck s.cfg.checkKeyParity op
  case none =>
    left
    obtain ⟨-, ⟨rfl, -⟩ | ⟨rfl | rfl, -⟩⟩ := (commandCheck_eq_none_iff _ _ _).mp check
    · exact ⟨_, rfl, rfl, rfl⟩
    · exact ⟨_, rfl, rfl, rfl⟩
    · exact ⟨_, rfl, rfl, rfl⟩
  all_goals exact .inr ⟨_, by simp, rfl, by cases op <;> rfl⟩

/-- A checked `RKDATA` write: the entry stored, or the code and nothing else. -/
theorem writeRkdata_cases (m : Device) (wdata : Word64) :
    (m.rkdataCheck wdata = .none ∧
        m.writeRkdata wdata (m.rkdataCheck wdata) = m.storeRoundKey (roundKeyField wdata)) ∨
    (∃ code, code ≠ .none ∧ m.rkdataCheck wdata = code ∧
        m.writeRkdata wdata (m.rkdataCheck wdata) = m.raiseError code) := by
  cases m.rkdataCheck wdata
  case none => exact .inl ⟨rfl, rfl⟩
  all_goals exact .inr ⟨_, by simp, rfl, rfl⟩

/-! The datapath and the completion step. -/

/-- One cycle: a round of the command in flight, or nothing. -/
theorem cycle_cases (t : Tables) (m : Device) :
    (∃ p, m.pend = some p ∧ m.busy = true ∧ m.round.toNat < 16 ∧
        m.cycle t = if p.op = .ksched then m.keyRound t else m.blockRound t p.op) ∨
    m.cycle t = m := by
  unfold Device.cycle
  cases busy : m.busy <;> cases left_ : m.roundsLeft <;> cases pend : m.pend with
  | none => exact .inr rfl
  | some p =>
    first
    | exact .inr rfl
    | refine .inl ⟨p, rfl, rfl, by simpa [Device.roundsLeft] using left_, ?_⟩
      cases op : p.op <;> simp [op]

/-- What completion leaves alone and what it sets, whichever command completes (R38). -/
theorem complete_common (t : Tables) (p : Pending) (m : Device) :
    (m.complete t p).key = m.key ∧ (m.complete t p).din = m.din ∧ (m.complete t p).rkidx = m.rkidx ∧
    (m.complete t p).err = m.err ∧ (m.complete t p).busy = false ∧ (m.complete t p).done = true ∧
    (m.complete t p).pend = none ∧ (m.complete t p).round = 16#5 := by
  cases op : p.op <;> simp [Device.complete, op]

/-- What KSCHED's completion commits (R127). -/
theorem complete_ksched (t : Tables) {p : Pending} (op : p.op = .ksched) (m : Device) :
    (m.complete t p).rk = deriveRoundKeys t p.ks ∧ (m.complete t p).rkValid = 0xFFFF#16 ∧
    (m.complete t p).dout = m.dout := by
  simp [Device.complete, op]

/-- What a block command's completion commits (R150, R151). -/
theorem complete_block (t : Tables) {p : Pending} (op : p.op ≠ .ksched) (m : Device) :
    (m.complete t p).dout = transform t p.bs (keysInOrder p.op m.rk) ∧ (m.complete t p).rk = m.rk ∧
    (m.complete t p).rkValid = m.rkValid := by
  cases which : p.op
  · exact absurd which op
  all_goals simp [Device.complete, which]

/-- A turn of the completion step. -/
theorem completionTurn_cases (s : State) :
    (s.busy = false ∧ completionTurn s = .next s) ∨
    (∃ p, s.busy = true ∧ s.pend = some p ∧
        completionTurn s = .next (s.onDevice fun m => m.complete s.cfg.tables p)) ∨
    (s.busy = true ∧ s.pend = none ∧ completionTurn s = .fault .completionWithoutCommand) := by
  unfold completionTurn
  cases busy : s.busy <;> cases pend : s.pend <;> simp

end Sys2Proof.Machine
end

