-- ==== Sys2Proof/Laws/Step.lean ====
section
/-! SUPPORT. Sys2Proof/Laws/Step.lean: what an operation and a step can do, said once. -/

namespace Sys2Proof.Machine

/-- What an operation does to DESCORE: nothing, one register written, a checked `CMD` write, or a checked `RKDATA`
write. -/
inductive DeviceChange (s : State) : Device → Prop
  | same : DeviceChange s s.toDevice
  | key (v : Word64) : DeviceChange s (s.toDevice.setKey v)
  | din (v : Word64) : DeviceChange s (s.toDevice.setDin v)
  | rkidx (v : BitVec 4) : DeviceChange s (s.toDevice.setRkidx v)
  | command (op : Option Command) : DeviceChange s (s.writeCmd op).toDevice
  | roundKey (wdata : Word64) :
      DeviceChange s (s.toDevice.writeRkdata wdata (s.toDevice.rkdataCheck wdata))

/-- Every operation answers a next state; it keeps the parameters and the script, and records a faulted access or
none. -/
theorem exec_cases (i : Instr) (s : State) :
    ∃ t, exec i s = .next t ∧ t.cfg = s.cfg ∧ t.script = s.script ∧ DeviceChange s t.toDevice ∧
      (t.busErrors = s.busErrors ∨
        ∃ dir addr wdata, i = .buserr dir addr wdata ∧ t.busErrors = s.busErrors ++ [⟨dir, addr⟩]) := by
  cases i with
  | ksched => exact ⟨_, rfl, rfl, rfl, .command (some .ksched), .inl rfl⟩
  | encrypt => exact ⟨_, rfl, rfl, rfl, .command (some .encrypt), .inl rfl⟩
  | decrypt => exact ⟨_, rfl, rfl, rfl, .command (some .decrypt), .inl rfl⟩
  | cmdIllegal wdata => exact ⟨_, rfl, rfl, rfl, .command none, .inl rfl⟩
  | wrKey wdata => exact ⟨_, rfl, rfl, rfl, .key wdata, .inl rfl⟩
  | wrDin wdata => exact ⟨_, rfl, rfl, rfl, .din wdata, .inl rfl⟩
  | wrRkidx wdata => exact ⟨_, rfl, rfl, rfl, .rkidx (rkIndexField wdata), .inl rfl⟩
  | wrRkdata wdata => exact ⟨_, rfl, rfl, rfl, .roundKey wdata, .inl rfl⟩
  | buserr dir addr wdata => exact ⟨_, rfl, rfl, rfl, .same, .inr ⟨dir, addr, wdata, rfl, rfl⟩⟩
  | rdCmd => exact ⟨_, rfl, rfl, rfl, .same, .inl rfl⟩
  | rdStatus => exact ⟨_, rfl, rfl, rfl, .same, .inl rfl⟩
  | wrStatus wdata => exact ⟨_, rfl, rfl, rfl, .same, .inl rfl⟩
  | rdKey => exact ⟨_, rfl, rfl, rfl, .same, .inl rfl⟩
  | rdDin => exact ⟨_, rfl, rfl, rfl, .same, .inl rfl⟩
  | rdDout => exact ⟨_, rfl, rfl, rfl, .same, .inl rfl⟩
  | wrDout wdata => exact ⟨_, rfl, rfl, rfl, .same, .inl rfl⟩
  | rdRkidx => exact ⟨_, rfl, rfl, rfl, .same, .inl rfl⟩
  | rdRkdata => exact ⟨_, rfl, rfl, rfl, .same, .inl rfl⟩
  | rdRsvd38 => exact ⟨_, rfl, rfl, rfl, .same, .inl rfl⟩
  | wrRsvd38 wdata => exact ⟨_, rfl, rfl, rfl, .same, .inl rfl⟩

/-- A step whose script begins with an access runs the decoded operation. -/
theorem step_access (s : State) (w : BusWord) (rest : List Event) (script : s.script = .access w :: rest) :
    step s = exec (decode w) { s with script := rest } := by
  simp [step, nextTurn, script, turnOf]

/-- What a step can do: an access, a datapath cycle, a completion turn, a reset, or nothing in a finished run. -/
theorem step_cases (s : State) :
    (∃ w rest, s.script = .access w :: rest ∧ step s = exec (decode w) { s with script := rest }) ∨
    (∃ rest, s.script = .round :: rest ∧ step s = datapathTurn { s with script := rest }) ∨
    (∃ rest, s.script = .completion :: rest ∧ step s = completionTurn { s with script := rest }) ∨
    (∃ rest, s.script = .reset :: rest ∧ step s = resetTurn { s with script := rest }) ∨
    (s.script = [] ∧ s.busy = true ∧ step s = completionTurn s) ∨
    (s.script = [] ∧ s.busy = false ∧ step s = .next s) := by
  cases script : s.script with
  | nil => cases busy : s.busy <;> simp [step, nextTurn, script, busy]
  | cons e rest => cases e <;> simp [step, nextTurn, script, turnOf]

end Sys2Proof.Machine
end

