-- ==== Sys2Proof/Laws/Effects.lean ====
section
/-! SUPPORT. Sys2Proof/Laws/Effects.lean: every step, in the terms of Safety.lean: which event made it and what it did
to DESCORE. -/

namespace Sys2Proof.Machine

/-- The offsets of the window's eight registers are its aligned ones (spec/20_memory.md R50, R55). -/
theorem aligned_iff (a : Offset) :
    a.extractLsb' 0 3 = 0#3 ↔
      a = 0x00#6 ∨ a = 0x08#6 ∨ a = 0x10#6 ∨ a = 0x18#6 ∨ a = 0x20#6 ∨ a = 0x28#6 ∨ a = 0x30#6 ∨ a = 0x38#6 := by
  revert a; decide

/-- The event a script begins with, and the rest. -/
theorem script_of_head {s : State} {e : Event} (head : s.script.head? = some e) : s.script = e :: s.script.tail := by
  cases script : s.script <;> simp_all

/-- A command word names its command. -/
theorem Command.word_inj {a b : Command} : a.word = b.word ↔ a = b := by
  cases a <;> cases b <;> simp [Command.word]

/-- R80 rows 1 to 4: what a write to `CMD` decodes to. -/
theorem decode_command (x : Word64) :
    decode (busWord .write 0x00#6 x) =
      if x = 1#64 then .ksched else if x = 2#64 then .encrypt else if x = 3#64 then .decrypt else .cmdIllegal x := by
  rw [decode_busWord]
  simp

/-- A write's word is the encoding of the operation it decodes to. -/
theorem encode_decode_of_write (a : Offset) (x : Word64) :
    encode (decode (busWord .write a x)) = busWord .write a x := by
  by_cases aligned : a.extractLsb' 0 3 = 0#3
  · rcases (aligned_iff a).mp aligned with h | h | h | h | h | h | h | h <;> subst h
    case inl =>
      rw [decode_command]
      by_cases h1 : x = 1#64
      · rw [if_pos h1, h1]; rfl
      by_cases h2 : x = 2#64
      · rw [if_neg h1, if_pos h2, h2]; rfl
      by_cases h3 : x = 3#64
      · rw [if_neg h1, if_neg h2, if_pos h3, h3]; rfl
      rw [if_neg h1, if_neg h2, if_neg h3]; rfl
    all_goals
      rw [decode_busWord]
      simp [encode, Instr.dir, Instr.addr, Instr.wdata, offsetStatus, offsetKey, offsetDin, offsetDout, offsetRkidx,
        offsetRkdata, offsetRsvd38]
  · have hole := aligned
    rw [aligned_iff] at hole
    push Not at hole
    rw [decode_busWord]
    simp [hole, encode, Instr.dir, Instr.addr, Instr.wdata]

/-- An operation that is read from a read's word is a read. -/
theorem dir_decode_of_read (a : Offset) (x : Word64) : (decode (busWord .read a x)).dir = .read := by
  by_cases aligned : a.extractLsb' 0 3 = 0#3
  · rcases (aligned_iff a).mp aligned with h | h | h | h | h | h | h | h <;> subst h <;> rw [decode_busWord] <;>
      simp [Instr.dir]
  · rw [aligned_iff] at aligned
    push Not at aligned
    rw [decode_busWord]
    simp [aligned, Instr.dir]

/-- The word of each operation that writes DESCORE's state, from the operation it decodes to. -/
theorem word_of_decode (w : BusWord) :
    (decode w = .ksched → w = busWord .write offsetCmd 1#64) ∧
    (decode w = .encrypt → w = busWord .write offsetCmd 2#64) ∧
    (decode w = .decrypt → w = busWord .write offsetCmd 3#64) ∧
    (∀ x, decode w = .cmdIllegal x → w = busWord .write offsetCmd x) ∧
    (∀ x, decode w = .wrKey x → w = busWord .write offsetKey x) ∧
    (∀ x, decode w = .wrDin x → w = busWord .write offsetDin x) ∧
    (∀ x, decode w = .wrRkidx x → w = busWord .write offsetRkidx x) ∧
    (∀ x, decode w = .wrRkdata x → w = busWord .write offsetRkdata x) := by
  have word : ∀ i, decode w = i → i.dir = .write → w = encode i := fun i is writes => by
    subst is
    obtain ⟨d, a, x, rfl⟩ : ∃ d a x, w = busWord d a x := ⟨_, _, _, (busWord_fields w).symm⟩
    cases d
    · rw [dir_decode_of_read] at writes
      cases writes
    · exact (encode_decode_of_write a x).symm
  exact ⟨fun h => word .ksched h rfl, fun h => word .encrypt h rfl, fun h => word .decrypt h rfl,
    fun x h => word (.cmdIllegal x) h rfl, fun x h => word (.wrKey x) h rfl, fun x h => word (.wrDin x) h rfl,
    fun x h => word (.wrRkidx x) h rfl, fun x h => word (.wrRkdata x) h rfl⟩

/-- A word that decodes to CMD_ILLEGAL is no command's. -/
theorem not_command_of_decode {w : BusWord} {x : Word64} (illegal : decode w = .cmdIllegal x) :
    x ≠ 1#64 ∧ x ≠ 2#64 ∧ x ≠ 3#64 := by
  have word := (word_of_decode w).2.2.2.1 x illegal
  rw [word, offsetCmd, decode_command] at illegal
  refine ⟨?_, ?_, ?_⟩ <;> rintro rfl <;> simp at illegal

/-- The round key of an `RKDATA` word that carries nothing above it. -/
theorem roundKeyField_setWidth (v : RoundKey) : roundKeyField (v.setWidth 64) = v := by
  apply BitVec.eq_of_getLsbD_eq
  intro i inside
  have : i < 64 := by omega
  simp [roundKeyField, inside, this]

/-- The upper 16 bits are 0 exactly where the word is a 48-bit round key (spec/30_encoding.md R75). -/
theorem roundKeyExcess_eq_zero_iff (x : Word64) :
    roundKeyExcess x = 0#16 ↔ x = (roundKeyField x).setWidth 64 := by
  constructor
  · intro none_
    apply BitVec.eq_of_getLsbD_eq
    intro i inside
    rw [BitVec.getLsbD_setWidth, roundKeyField, BitVec.getLsbD_extractLsb']
    by_cases low : i < 48
    · simp [low, inside]
    · have bit := congrArg (fun v => v.getLsbD (i - 48)) none_
      have sum : 48 + (i - 48) = i := by omega
      have top : i - 48 < 16 := by omega
      simpa [roundKeyExcess, BitVec.getLsbD_extractLsb', sum, top, low] using bit
  · intro is
    rw [is]
    apply BitVec.eq_of_getLsbD_eq
    intro i inside
    simp [roundKeyExcess, BitVec.getLsbD_setWidth]

/-- What a step did to DESCORE, and the event that made it. -/
inductive Effect (s t : State) : Prop
  | reset (next : s.ResetsNext) (is : t.toDevice = Device.reset)
  | accept (op : Command) (next : s.AcceptsNext op) (is : t.toDevice = s.toDevice.accept s.cfg.tables op)
  | rejectCommand (x : Word64) (code : ErrCode) (next : s.WritesNext offsetCmd x) (not : ∀ op, ¬s.AcceptsNext op)
      (raises : code ≠ .none) (is : t.toDevice = s.toDevice.raiseError code)
  | store (v : RoundKey) (next : s.StoresNext v) (is : t.toDevice = s.toDevice.storeRoundKey v)
  | rejectRoundKey (x : Word64) (code : ErrCode) (next : s.WritesNext offsetRkdata x) (not : ∀ v, ¬s.StoresNext v)
      (raises : code ≠ .none) (is : t.toDevice = s.toDevice.raiseError code)
  | key (x : Word64) (next : s.WritesNext offsetKey x) (is : t.toDevice = s.toDevice.setKey x)
  | din (x : Word64) (next : s.WritesNext offsetDin x) (is : t.toDevice = s.toDevice.setDin x)
  | rkidx (x : Word64) (next : s.WritesNext offsetRkidx x) (is : t.toDevice = s.toDevice.setRkidx (rkIndexField x))
  | access (w : BusWord) (next : s.script.head? = some (.access w))
      (other : ∀ x, w ≠ busWord .write offsetCmd x ∧ w ≠ busWord .write offsetRkdata x ∧
        w ≠ busWord .write offsetKey x ∧ w ≠ busWord .write offsetDin x ∧ w ≠ busWord .write offsetRkidx x)
      (is : t.toDevice = s.toDevice)
  | round (next : s.script.head? = some .round) (is : t.toDevice = s.toDevice.cycle s.cfg.tables)
  | complete (p : Pending) (next : s.CompletesNext) (pend : s.pend = some p)
      (is : t.toDevice = s.toDevice.complete s.cfg.tables p)
  | idle (idle : s.busy = false) (next : s.script = [] ∨ s.script.head? = some .completion)
      (is : t.toDevice = s.toDevice)

/-- A `CMD` write that a step makes: accepted, or turned away with a code. -/
theorem effect_of_command {s t : State} {rest : List Event} {w : BusWord} {x : Word64} {op : Option Command}
    (script : s.script = .access w :: rest) (word : w = busWord .write offsetCmd x)
    (carries : ∀ command, op = some command ↔ x = command.word)
    (is : t.toDevice = (State.writeCmd { s with script := rest } op).toDevice) : Effect s t := by
  rcases writeCmd_cases { s with script := rest } op with ⟨command, named, passes, h⟩ | ⟨code, raises, check, h⟩
  · refine .accept command ?_ (is.trans h)
    rw [named, commandCheck_eq_none_iff] at passes
    refine ⟨passes.1, by rw [script, word, (carries command).mp named]; rfl, ?_⟩
    cases command <;> simpa [Device.rkReady] using passes.2
  · refine .rejectCommand x code (by simp [State.WritesNext, script, word]) ?_ raises (is.trans h)
    rintro command ⟨idle, next, ready⟩
    rw [script, word] at next
    simp only [List.head?_cons, Option.some.injEq, Event.access.injEq, busWord_inj, true_and] at next
    apply raises
    rw [← check, (carries command).mpr next, commandCheck_eq_none_iff]
    refine ⟨idle, ?_⟩
    cases command <;> simpa [Device.rkReady] using ready

/-- An `RKDATA` write that a step makes: stored, or turned away with a code. -/
theorem effect_of_round_key {s t : State} {rest : List Event} {w : BusWord} {x : Word64}
    (script : s.script = .access w :: rest) (word : w = busWord .write offsetRkdata x)
    (is : t.toDevice = s.toDevice.writeRkdata x (s.toDevice.rkdataCheck x)) : Effect s t := by
  rcases writeRkdata_cases s.toDevice x with ⟨passes, h⟩ | ⟨code, raises, check, h⟩
  · rw [rkdataCheck_eq_none_iff, roundKeyExcess_eq_zero_iff] at passes
    exact .store (roundKeyField x) ⟨passes.1, by rw [script, word, ← passes.2]; rfl⟩ (is.trans h)
  · refine .rejectRoundKey x code (by simp [State.WritesNext, script, word]) ?_ raises (is.trans h)
    rintro v ⟨idle, next⟩
    rw [script, word] at next
    simp only [List.head?_cons, Option.some.injEq, Event.access.injEq, busWord_inj, true_and] at next
    apply raises
    rw [← check, rkdataCheck_eq_none_iff, roundKeyExcess_eq_zero_iff, next, roundKeyField_setWidth]
    exact ⟨idle, rfl⟩

/-- Every step that answers a next state is one of these. -/
theorem effect_of_step {s t : State} (answers : step s = .next t) : Effect s t := by
  rcases step_cases s with ⟨w, rest, script, e⟩ | ⟨rest, script, e⟩ | ⟨rest, script, e⟩ | ⟨rest, script, e⟩ |
    ⟨script, busy, e⟩ | ⟨script, idle, e⟩ <;> rw [e] at answers
  · obtain ⟨w1, w2, w3, w4, w5, w6, w7, w8⟩ := word_of_decode w
    cases op : decode w <;> rw [op] at answers
    case ksched =>
      exact effect_of_command script (w1 op) (op := some .ksched)
        (fun c => by cases c <;> simp [Command.word]) (by cases answers; rfl)
    case encrypt =>
      exact effect_of_command script (w2 op) (op := some .encrypt)
        (fun c => by cases c <;> simp [Command.word]) (by cases answers; rfl)
    case decrypt =>
      exact effect_of_command script (w3 op) (op := some .decrypt)
        (fun c => by cases c <;> simp [Command.word]) (by cases answers; rfl)
    case cmdIllegal x =>
      have illegal := not_command_of_decode op
      exact effect_of_command script (w4 x op) (op := none)
        (fun c => by cases c <;> simp [Command.word, illegal]) (by cases answers; rfl)
    case wrKey x => exact .key x (by simp [State.WritesNext, script, w5 x op]) (by cases answers; rfl)
    case wrDin x => exact .din x (by simp [State.WritesNext, script, w6 x op]) (by cases answers; rfl)
    case wrRkidx x => exact .rkidx x (by simp [State.WritesNext, script, w7 x op]) (by cases answers; rfl)
    case wrRkdata x => exact effect_of_round_key script (w8 x op) (by cases answers; rfl)
    all_goals
      refine .access w (by simp [script]) ?_ (by cases answers; rfl)
      intro x
      refine ⟨?_, ?_, ?_, ?_, ?_⟩ <;>
        (rintro rfl; rw [decode_busWord] at op
         simp [offsetCmd, offsetRkdata, offsetKey, offsetDin, offsetRkidx] at op
         try (revert op; split_ifs <;> simp))
  · cases answers; exact .round (by simp [script]) rfl
  · rcases completionTurn_cases { s with script := rest } with ⟨idle, e⟩ | ⟨p, busy, pend, e⟩ | ⟨-, -, e⟩ <;>
      rw [e] at answers <;> cases answers
    · exact .idle idle (.inr (by simp [script])) rfl
    · exact .complete p ⟨busy, .inr (by simp [script])⟩ pend rfl
  · cases answers; exact .reset (by simp [State.ResetsNext, script]) rfl
  · rcases completionTurn_cases s with ⟨idle, e⟩ | ⟨p, busy, pend, e⟩ | ⟨-, -, e⟩ <;>
      rw [e] at answers <;> cases answers
    · exact .idle idle (.inl script) rfl
    · exact .complete p ⟨busy, .inl script⟩ pend rfl
  · cases answers; exact .idle idle (.inl script) rfl

/-- A completion step, as a next state (R38). -/
theorem step_of_completes {s : State} {p : Pending} (next : s.CompletesNext) (pend : s.pend = some p) :
    step s = .next { s.afterEvent with toDevice := s.toDevice.complete s.cfg.tables p } := by
  obtain ⟨busy, script | head⟩ := next
  · simp [step, nextTurn, script, busy, completionTurn, pend, State.onDevice]
  · have script := script_of_head head
    simp only [step, nextTurn]
    rw [script]
    simp [turnOf, completionTurn, busy, pend, State.onDevice]

end Sys2Proof.Machine
end

