-- ==== Sys2Proof/Laws/PerInstr.lean ====
section
/-! SUPPORT. Sys2Proof/Laws/PerInstr.lean: the statements made of each operation as syntax. -/

namespace Sys2Proof

/-- The word of an operation carries its direction, its offset and its data in the three fields of R70. -/
def Laws.EncodedFields.Statement (i : Instr) : Prop :=
  dirOf (encode i) = i.dir ∧ addrOf (encode i) = i.addr ∧ wdataOf (encode i) = i.wdata

/-- It holds of every operation, because a word made of fields has them. -/
theorem encodedFields (i : Instr) : Laws.EncodedFields.Statement i :=
  ⟨dirOf_busWord .., addrOf_busWord .., wdataOf_busWord ..⟩

theorem Laws.EncodedFields.ksched : Laws.EncodedFields.Statement .ksched := encodedFields _
theorem Laws.EncodedFields.encrypt : Laws.EncodedFields.Statement .encrypt := encodedFields _
theorem Laws.EncodedFields.decrypt : Laws.EncodedFields.Statement .decrypt := encodedFields _
theorem Laws.EncodedFields.cmdIllegal (wdata : Word64) : Laws.EncodedFields.Statement (.cmdIllegal wdata) := encodedFields _
theorem Laws.EncodedFields.rdCmd : Laws.EncodedFields.Statement .rdCmd := encodedFields _
theorem Laws.EncodedFields.rdStatus : Laws.EncodedFields.Statement .rdStatus := encodedFields _
theorem Laws.EncodedFields.wrStatus (wdata : Word64) : Laws.EncodedFields.Statement (.wrStatus wdata) := encodedFields _
theorem Laws.EncodedFields.rdKey : Laws.EncodedFields.Statement .rdKey := encodedFields _
theorem Laws.EncodedFields.wrKey (wdata : Word64) : Laws.EncodedFields.Statement (.wrKey wdata) := encodedFields _
theorem Laws.EncodedFields.rdDin : Laws.EncodedFields.Statement .rdDin := encodedFields _
theorem Laws.EncodedFields.wrDin (wdata : Word64) : Laws.EncodedFields.Statement (.wrDin wdata) := encodedFields _
theorem Laws.EncodedFields.rdDout : Laws.EncodedFields.Statement .rdDout := encodedFields _
theorem Laws.EncodedFields.wrDout (wdata : Word64) : Laws.EncodedFields.Statement (.wrDout wdata) := encodedFields _
theorem Laws.EncodedFields.rdRkidx : Laws.EncodedFields.Statement .rdRkidx := encodedFields _
theorem Laws.EncodedFields.wrRkidx (wdata : Word64) : Laws.EncodedFields.Statement (.wrRkidx wdata) := encodedFields _
theorem Laws.EncodedFields.rdRkdata : Laws.EncodedFields.Statement .rdRkdata := encodedFields _
theorem Laws.EncodedFields.wrRkdata (wdata : Word64) : Laws.EncodedFields.Statement (.wrRkdata wdata) := encodedFields _
theorem Laws.EncodedFields.rdRsvd38 : Laws.EncodedFields.Statement .rdRsvd38 := encodedFields _
theorem Laws.EncodedFields.wrRsvd38 (wdata : Word64) : Laws.EncodedFields.Statement (.wrRsvd38 wdata) := encodedFields _
theorem Laws.EncodedFields.buserr (dir : Dir) (addr : Offset) (wdata : Word64) : Laws.EncodedFields.Statement (.buserr dir addr wdata) := encodedFields _

end Sys2Proof
end

