-- ==== Sys2Proof/Laws/Runs.lean ====
section
/-! SUPPORT. Sys2Proof/Laws/Runs.lean: runs one after the other, and what quiet events leave alone. -/

namespace Sys2Proof.Machine

/-- A run of `m` steps that goes on for `n` more. -/
theorem run_add {m n : Nat} {s t : State} (first : core.run m s = .next t) :
    core.run (m + n) s = core.run n t := by
  induction m generalizing s with
  | zero => rw [Nat.zero_add]; cases first; rfl
  | succ m ih =>
    rw [Nat.succ_add]
    simp only [Host.Core.run] at first ⊢
    cases answers : core.step s with
    | next u => rw [answers] at first; exact ih first
    | fault r => rw [answers] at first; cases first
    | refused r => rw [answers] at first; cases first

/-- A run of one step. -/
theorem run_one {s t : State} (answers : step s = .next t) : core.run 1 s = .next t := by
  simp only [Host.Core.run, core, answers]

/-- What a quiet event leaves alone: all that a command, its result and its report rest on. The round keys stay unless a
KSCHED is in flight. -/
abbrev KeepsCommand (s t : State) : Prop :=
  t.cfg = s.cfg ∧ t.din = s.din ∧ t.dout = s.dout ∧ t.rkValid = s.rkValid ∧ t.busy = s.busy ∧ t.done = s.done ∧
    t.err = s.err ∧ t.pend = s.pend ∧ ((∀ p ∈ s.pend, p.op ≠ .ksched) → t.rk = s.rk)

/-- What one follows the other keeps. -/
theorem KeepsCommand.trans {s t u : State} (first : KeepsCommand s t) (second : KeepsCommand t u) :
    KeepsCommand s u := by
  obtain ⟨a1, a2, a3, a4, a5, a6, a7, a8, a9⟩ := first
  obtain ⟨b1, b2, b3, b4, b5, b6, b7, b8, b9⟩ := second
  exact ⟨b1.trans a1, b2.trans a2, b3.trans a3, b4.trans a4, b5.trans a5, b6.trans a6, b7.trans a7, b8.trans a8,
    fun block => (b9 (a8 ▸ block)).trans (a9 block)⟩

/-- A write to `CMD`, `RKDATA` or `DIN` is not quiet. -/
theorem not_quiet_of_write {offset : Offset} {x : Word64}
    (watched : offset = offsetCmd ∨ offset = offsetRkdata ∨ offset = offsetDin) :
    (Event.access (busWord .write offset x)).quiet = false := by
  rcases watched with rfl | rfl | rfl <;> simp [Event.quiet]

/-- A step of a quiet event. -/
theorem step_of_quiet {s : State} {e : Event} {rest : List Event} (script : s.script = e :: rest)
    (quiet : e.quiet = true) : ∃ t, step s = .next t ∧ t.script = rest ∧ KeepsCommand s t := by
  have head : s.script.head? = some e := by rw [script]; rfl
  have watched : ∀ {offset x}, offset = offsetCmd ∨ offset = offsetRkdata ∨ offset = offsetDin →
      s.script.head? ≠ some (.access (busWord .write offset x)) := fun which next => by
    rw [head] at next
    cases next
    rw [not_quiet_of_write which] at quiet
    cases quiet
  obtain ⟨t, answers, left_, cfg⟩ : ∃ t, step s = .next t ∧ t.script = rest ∧ t.cfg = s.cfg := by
    cases e with
    | access w =>
      obtain ⟨t, answers, cfg, left_, -⟩ := exec_cases (decode w) { s with script := rest }
      exact ⟨t, (step_access s w rest script).trans answers, left_, cfg⟩
    | round =>
      exact ⟨State.onDevice { s with script := rest } fun m => m.cycle s.cfg.tables,
        by simp only [step, nextTurn, script, turnOf, datapathTurn], rfl, rfl⟩
    | completion => cases quiet
    | reset => cases quiet
  refine ⟨t, answers, left_, cfg, ?_⟩
  rcases effect_of_step answers with ⟨next, -⟩ | ⟨op, next, -⟩ | ⟨x, code, next, -, -, -⟩ | ⟨v, next, -⟩ |
    ⟨x, code, next, -, -, -⟩ | ⟨x, -, is⟩ | ⟨x, next, -⟩ | ⟨x, -, is⟩ | ⟨w, -, -, is⟩ | ⟨-, is⟩ | ⟨p, next, -, -⟩ |
    ⟨-, next, -⟩
  · rw [State.ResetsNext, head] at next; cases next; cases quiet
  · exact absurd next.2.1 (watched (.inl rfl))
  · exact absurd next (watched (.inl rfl))
  · exact absurd next.2 (watched (.inr (.inl rfl)))
  · exact absurd next (watched (.inr (.inl rfl)))
  · rw [is]; exact ⟨rfl, rfl, rfl, rfl, rfl, rfl, rfl, fun _ => rfl⟩
  · exact absurd next (watched (.inr (.inr rfl)))
  · rw [is]; exact ⟨rfl, rfl, rfl, rfl, rfl, rfl, rfl, fun _ => rfl⟩
  · rw [is]; exact ⟨rfl, rfl, rfl, rfl, rfl, rfl, rfl, fun _ => rfl⟩
  · rw [is]
    rcases cycle_cases s.cfg.tables s.toDevice with ⟨p, pend, -, -, cycle⟩ | cycle <;> rw [cycle]
    · split
      · rename_i ksched
        exact ⟨rfl, rfl, rfl, rfl, rfl, rfl, rfl, fun block => absurd ksched (block p pend)⟩
      · exact ⟨rfl, rfl, rfl, rfl, rfl, rfl, rfl, fun _ => rfl⟩
    · exact ⟨rfl, rfl, rfl, rfl, rfl, rfl, rfl, fun _ => rfl⟩
  · rcases next.2 with empty | next
    · rw [script] at empty; cases empty
    · rw [head] at next; cases next; cases quiet
  · rcases next with empty | next
    · rw [script] at empty; cases empty
    · rw [head] at next; cases next; cases quiet

/-- A run through quiet events. -/
theorem run_of_quiet {s : State} {es rest : List Event} (script : s.script = es ++ rest)
    (quiet : ∀ e ∈ es, e.quiet = true) :
    ∃ t, core.run es.length s = .next t ∧ t.script = rest ∧ KeepsCommand s t := by
  induction es generalizing s with
  | nil => exact ⟨s, rfl, script, rfl, rfl, rfl, rfl, rfl, rfl, rfl, rfl, fun _ => rfl⟩
  | cons e es ih =>
    obtain ⟨u, answers, left_, keeps⟩ := step_of_quiet script (quiet e List.mem_cons_self)
    obtain ⟨t, run, done, keeps'⟩ := ih left_ fun e' mem => quiet e' (List.mem_cons_of_mem e mem)
    refine ⟨t, ?_, done, keeps.trans keeps'⟩
    rw [List.length_cons, Nat.add_comm, run_add (run_one answers)]
    exact run

end Sys2Proof.Machine
end

