-- ==== Sys2Proof/Tests/Slice0.lean ====
section
/-! SUPPORT. Sys2Proof/Tests/Slice0.lean: the model's own tests. Expected values are those of spec/95_test_vectors.md,
named V-… in each comment, or of the rule named; each test is about one word, one function value or one step. The
witness_… theorems show, for each obligation with hypotheses, that something meets them. -/

namespace Sys2Proof.Tests

open Sys2Proof.Machine

/-! Ill-formed terms, one per check of WellFormed.lean. -/

/-- R73: `0x1` is a command, so no CMD_ILLEGAL carries it; `0x2` and `0x3` likewise. -/
theorem test_illformed_command :
    ¬(Instr.cmdIllegal 1#64).WellFormed ∧ ¬(Instr.cmdIllegal 2#64).WellFormed ∧ ¬(Instr.cmdIllegal 3#64).WellFormed := by
  decide

/-- R80: row 20 is reached by misaligned words only. -/
theorem test_illformed_aligned : ¬(Instr.buserr .read 0x08#6 0#64).WellFormed := by decide

/-! Decoding: the words of V-RA-1, one or more for every constructor. -/

theorem test_decode_ksched : decode 0x400000000000000001#71 = .ksched := by decide
theorem test_decode_encrypt : decode 0x400000000000000002#71 = .encrypt := by decide
theorem test_decode_decrypt : decode 0x400000000000000003#71 = .decrypt := by decide
theorem test_decode_cmdIllegal :
    decode 0x400000000000000000#71 = .cmdIllegal 0#64 ∧ decode 0x400000000000000011#71 = .cmdIllegal 0x11#64 ∧
    decode 0x408000000000000001#71 = .cmdIllegal 0x8000000000000001#64 := by decide
theorem test_decode_rdCmd :
    decode 0x000000000000000000#71 = .rdCmd ∧ decode 0x00FFFFFFFFFFFFFFFF#71 = .rdCmd := by decide
theorem test_decode_rdStatus : decode 0x080000000000000000#71 = .rdStatus := by decide
theorem test_decode_wrStatus : decode 0x480000000000000007#71 = .wrStatus 7#64 := by decide
theorem test_decode_rdKey : decode 0x100000000000000000#71 = .rdKey := by decide
theorem test_decode_wrKey : decode 0x50133457799BBCDFF1#71 = .wrKey 0x133457799BBCDFF1#64 := by decide
theorem test_decode_rdDin : decode 0x180000000000000000#71 = .rdDin := by decide
theorem test_decode_wrDin : decode 0x580123456789ABCDEF#71 = .wrDin 0x0123456789ABCDEF#64 := by decide
theorem test_decode_rdDout : decode 0x200000000000000000#71 = .rdDout := by decide
theorem test_decode_wrDout : decode 0x601234000000000000#71 = .wrDout 0x1234000000000000#64 := by decide
theorem test_decode_rdRkidx : decode 0x280000000000000000#71 = .rdRkidx := by decide
theorem test_decode_wrRkidx : decode 0x68000000000000000F#71 = .wrRkidx 0xF#64 := by decide
theorem test_decode_rdRkdata : decode 0x300000000000000000#71 = .rdRkdata := by decide
theorem test_decode_wrRkdata : decode 0x700000FFFFFFFFFFFF#71 = .wrRkdata 0x0000FFFFFFFFFFFF#64 := by decide
theorem test_decode_rdRsvd38 : decode 0x380000000000000000#71 = .rdRsvd38 := by decide
theorem test_decode_wrRsvd38 : decode 0x78FFFFFFFFFFFFFFFF#71 = .wrRsvd38 0xFFFFFFFFFFFFFFFF#64 := by decide
theorem test_decode_buserr :
    decode 0x0C0000000000000000#71 = .buserr .read 0x0C#6 0#64 ∧
    decode 0x710000000000000007#71 = .buserr .write 0x31#6 7#64 ∧
    decode 0x7F0000000000000000#71 = .buserr .write 0x3F#6 0#64 := by decide

/-- R70: a number of more than 71 bits is no bus-operation word. -/
theorem test_decode_wide : decodeTableWord 72 (2 ^ 71) = none := by decide

/-- The host's question of the table: `WR KEY, 5`. -/
theorem test_decodeTableWord : decodeTableWord 71 0x500000000000000005 = some (.wrKey 5#64) := by decide

/-- The notation of R81 and R82: `WR CMD, 0x1`, `RD STATUS` (R70's own examples), `SETRK 3` and `GETRK 0`, and what
`WAIT` and `CHECK` read of `STATUS` (V-RA-6). -/
theorem test_notation :
    issueWord .ksched = 0x400000000000000001#71 ∧ rd .status = 0x080000000000000000#71 ∧
    setRk 3#4 0x72ADD6DB351D#64 = [0x680000000000000003#71, 0x70000072ADD6DB351D#71] ∧
    getRk 0#4 = [0x680000000000000000#71, 0x300000000000000000#71] ∧
    waitGoesOn 0x1#64 = true ∧ waitGoesOn 0xFFFF0006#64 = false ∧
    checkPasses 0xFFFF0006#64 = true ∧ checkPasses 0x7FFF0030#64 = false := by decide

/-! Tables and functions. -/

/-- R101, R6: the default parameters have their shapes. -/
theorem test_params_shaped : descoreParams.Shaped := by decide +kernel

/-- V-TB-1. -/
theorem test_ip_fp :
    permute 64 standardTables.ip 0x0123456789ABCDEF#64 = 0xCC00CCFFF0AAF0AA#64 ∧
    permute 64 standardTables.fp 0x0123456789ABCDEF#64 = 0xFF330FAA00330FAA#64 ∧
    permute 64 standardTables.ip 0x0000000000000001#64 = 0x0000008000000000#64 ∧
    permute 64 standardTables.fp 0x8000000000000000#64 = 0x0000000000000040#64 := by decide +kernel

/-- V-TB-2. -/
theorem test_pc1 :
    keyHalvesInitial standardTables 0x133457799BBCDFF1#64 = (0xF0CCAAF#28, 0x556678F#28) ∧
    keyHalvesInitial standardTables 0x8000000000000000#64 = (0x0100000#28, 0#28) ∧
    keyHalvesInitial standardTables 0x0101010101010101#64 = (0#28, 0#28) ∧
    keyHalvesInitial standardTables 0x1F1F1F1F0E0E0E0E#64 = (0#28, 0xFFFFFFF#28) := by decide +kernel

/-- V-TB-3, V-TB-4. -/
theorem test_pc2_e_p :
    compressHalves standardTables (0x8000000#28, 0#28) = 0x080000000000#48 ∧
    compressHalves standardTables (0xF0CCAAF#28, 0x556678F#28) = 0xCB3D8B0E17F5#48 ∧
    permute 48 standardTables.e 0xF0AAF0AA#32 = 0x7A15557A1555#48 ∧
    permute 48 standardTables.e 0x80000000#32 = 0x400000000001#48 ∧
    permute 32 standardTables.p 0xF0AAF0AA#32 = 0x29C687C7#32 := by decide +kernel

/-- V-TB-5, the row of `011110` (row 0, column 15), for S1 to S8. -/
theorem test_sbox :
    standardTables.sboxes.map (fun box => sbox box 0b011110#6) =
      [7#4, 10#4, 8#4, 15#4, 9#4, 11#4, 1#4, 7#4] := by decide +kernel

/-- V-TB-6. -/
theorem test_substitute :
    substitute standardTables.sboxes 0x000000000001#48 = 0xEFA72C41#32 ∧
    substitute standardTables.sboxes 0x041041041041#48 = 0x03DDEAD1#32 ∧
    substitute standardTables.sboxes 0x6117BA866527#48 = 0x5C82B597#32 := by decide +kernel

/-- V-TB-7. -/
theorem test_rotl :
    rotl 0x8000000#28 1 = 0x0000001#28 ∧ rotl 0xC000000#28 2 = 0x0000003#28 ∧
    rotl 0xF0CCAAF#28 1 = 0xE19955F#28 ∧ rotl 0xE19955F#28 2 = 0x866557F#28 := by decide

/-- V-TB-9, and R145's example. -/
theorem test_round :
    roundFunction standardTables 0xF0AAF0AA#32 0x1B02EFFC7072#48 = 0x234AA9BB#32 ∧
    roundFunction standardTables 0xFFFFFFFF#32 0xFFFFFFFFFFFF#48 = 0xD8D8DBBC#32 ∧
    feistelRound standardTables (0xCC00CCFF#32, 0xF0AAF0AA#32) 0x1B02EFFC7072#48 = (0xF0AAF0AA#32, 0xEF4A6544#32) := by
  decide +kernel

/-- V-KS-11: the odd-parity check, on the keys it names. -/
theorem test_parity :
    parityOk 0x133457799BBCDFF1#64 = true ∧ parityOk 0x0101010101010101#64 = true ∧
    parityOk 0x0101010101010100#64 = false ∧ parityOk 0#64 = false ∧ parityOk 0x123556789ABDDEF0#64 = false := by
  decide +kernel

/-! States for the tests. -/

/-- A state with these events to come. -/
def withScript (s : State) (es : List Event) : State := { s with script := es }

/-- A state with a write to come. -/
def writing (s : State) (offset : Offset) (wdata : Word64) : State :=
  withScript s [.access (busWord .write offset wdata)]

/-- A state with every entry of the round-key file valid, and `RK[j] = j`. -/
def allValid : State :=
  { State.reset with rk := Vector.ofFn (fun j : Fin 16 => BitVec.ofNat 48 j.val), rkValid := 0xFFFF#16 }

/-- A state with this command in flight. -/
def inFlight (op : Command) (ks bs : Word64) : State :=
  { allValid with
    rkValid := if op = .ksched then 0#16 else 0xFFFF#16
    busy := true
    pend := some ⟨op, ks, bs⟩ }

/-- The same with the reference datapath at its start. -/
def loaded (op : Command) (ks bs : Word64) : State :=
  { inFlight op ks bs with
    c := (keyHalvesInitial standardTables ks).1
    d := (keyHalvesInitial standardTables ks).2
    l := (initialHalves standardTables bs).1
    r := (initialHalves standardTables bs).2 }

/-- The reset state of a DESCORE that checks the key's parity. -/
def parityChecked : State := { State.reset with cfg := { descoreParams with checkKeyParity := true } }

/-- The same with an odd-parity key. -/
def parityGood : State := { parityChecked with key := 0x0101010101010101#64 }

/-- What a step leaves, seen through `f`. -/
def stepped {α : Type} (s : State) (f : State → α) : Option α :=
  match step s with
  | .next t => some (f t)
  | .fault _ => none
  | .refused _ => none

/-- What an operation leaves, seen through `f`. -/
def done {α : Type} (i : Instr) (s : State) (f : State → α) : Option α :=
  match exec i s with
  | .next t => some (f t)
  | .fault _ => none
  | .refused _ => none

/-! One operation each. -/

/-- V-KS-10 step 2: KSCHED is accepted, and `STATUS` shows BUSY only. -/
theorem test_ksched : done .ksched { allValid with key := 5#64 } (fun t => (t.statusWord, t.pend)) =
    some (0x0000000000000001#64, some ⟨.ksched, 5#64, 0#64⟩) := by decide
/-- V-ER-8. -/
theorem test_ksched_parity : done .ksched parityChecked (fun t => t.statusWord) = some 0x50#64 := by decide
/-- V-XF-11 step 1. -/
theorem test_encrypt : done .encrypt { allValid with done := true, din := 7#64 } (fun t => (t.statusWord, t.pend)) =
    some (0xFFFF0005#64, some ⟨.encrypt, 0#64, 7#64⟩) := by decide
/-- V-ER-4. -/
theorem test_encrypt_incomplete : done .encrypt State.reset (fun t => t.statusWord) = some 0x30#64 := by decide
/-- V-ER-4b: one entry missing. -/
theorem test_decrypt_incomplete :
    done .decrypt { State.reset with rkValid := 0x7FFF#16 } (fun t => t.statusWord) = some 0x7FFF0030#64 := by decide
/-- V-XF-11 step 5. -/
theorem test_decrypt : done .decrypt { allValid with done := true } (fun t => (t.statusWord, t.pend)) =
    some (0xFFFF0005#64, some ⟨.decrypt, 0#64, 0#64⟩) := by decide
/-- V-ER-1. -/
theorem test_cmdIllegal : done (.cmdIllegal 0#64) State.reset (fun t => t.statusWord) = some 0x10#64 := by decide
/-- V-ER-3: while busy the code is BUSY. -/
theorem test_cmdIllegal_busy :
    done (.cmdIllegal 0#64) (inFlight .ksched 0#64 0#64) (fun t => t.statusWord) = some 0x21#64 := by decide
/-- V-RA-3. -/
theorem test_rdCmd : done .rdCmd (inFlight .ksched 0#64 0#64) (fun t => t.reply) = some (some ⟨some 0#64, false⟩) := by
  decide
/-- V-RA-6, last row. -/
theorem test_rdStatus :
    done .rdStatus { allValid with done := true, err := .illegalCmd } (fun t => t.reply) =
      some (some ⟨some 0x00000000FFFF0016#64, false⟩) := by decide
/-- V-RA-3. -/
theorem test_wrStatus :
    done (.wrStatus 0xFFFFFFFFFFFFFFFF#64) State.reset (fun t => t.statusWord) = some 0#64 := by decide
/-- V-RA-3: the key does not read back. -/
theorem test_rdKey :
    done .rdKey { State.reset with key := 0x133457799BBCDFF1#64 } (fun t => t.reply) = some (some ⟨some 0#64, false⟩) := by
  decide
/-- R174's example. -/
theorem test_wrKey : done (.wrKey 0x0123456789ABCDEF#64) State.reset (fun t => t.key) = some 0x0123456789ABCDEF#64 := by
  decide
/-- R175's example. -/
theorem test_rdDin :
    done .rdDin { State.reset with din := 0x4E6F772069732074#64 } (fun t => t.reply) =
      some (some ⟨some 0x4E6F772069732074#64, false⟩) := by decide
/-- V-XF-11 step 2: allowed while busy, and the sample keeps the old block. -/
theorem test_wrDin :
    done (.wrDin 0#64) (inFlight .encrypt 0#64 0x0123456789ABCDEF#64) (fun t => (t.din, t.pend, t.statusWord)) =
      some (0#64, some ⟨.encrypt, 0#64, 0x0123456789ABCDEF#64⟩, 0xFFFF0005#64) := by decide
/-- R177: the stored value, also while busy. -/
theorem test_rdDout :
    done .rdDout { inFlight .encrypt 0#64 0#64 with dout := 0x85E813540F0AB405#64 } (fun t => t.reply) =
      some (some ⟨some 0x85E813540F0AB405#64, false⟩) := by decide
/-- V-RA-3. -/
theorem test_wrDout : done (.wrDout 0x1234#64) State.reset (fun t => (t.dout, t.reply)) =
    some (0#64, some ⟨none, false⟩) := by decide
/-- V-RA-4. -/
theorem test_rdRkidx :
    done .rdRkidx { State.reset with rkidx := 0xF#4 } (fun t => t.reply) = some (some ⟨some 0xF#64, false⟩) := by decide
/-- V-RA-4: bits 63:4 are ignored. -/
theorem test_wrRkidx :
    done (.wrRkidx 0xFFFFFFFFFFFFFFF3#64) State.reset (fun t => t.rkidx) = some 3#4 ∧
    done (.wrRkidx 16#64) allValid (fun t => t.rkidx) = some 0#4 := by decide
/-- V-RA-5 steps 1 and 3: masked, then read. -/
theorem test_rdRkdata :
    done .rdRkdata { allValid with rkValid := 0xFFF7#16, rkidx := 3#4 } (fun t => t.reply) =
      some (some ⟨some 0#64, false⟩) ∧
    done .rdRkdata { allValid with rkidx := 15#4 } (fun t => t.reply) = some (some ⟨some 15#64, false⟩) := by decide
/-- V-RA-5 step 2. -/
theorem test_wrRkdata :
    done (.wrRkdata 0x0000FFFFFFFFFFFF#64) { State.reset with rkidx := 3#4 }
      (fun t => (rkEntry t.rk 3#4, t.rkValid, t.statusWord)) =
      some (0xFFFFFFFFFFFF#48, 0x0008#16, 0x00080000#64) := by decide
/-- V-RA-5 step 4: too wide. -/
theorem test_wrRkdata_wide :
    done (.wrRkdata 0x0001000000000000#64) { State.reset with rkidx := 3#4, rkValid := 8#16 }
      (fun t => (rkEntry t.rk 3#4, t.statusWord)) = some (0#48, 0x00080040#64) := by decide
/-- R183's example. -/
theorem test_rdRsvd38 : done .rdRsvd38 allValid (fun t => t.reply) = some (some ⟨some 0#64, false⟩) := by decide
/-- R184: no error, no state change. -/
theorem test_wrRsvd38 :
    done (.wrRsvd38 5#64) State.reset (fun t => (t.toDevice, t.reply)) =
      some (Device.reset, some ⟨none, false⟩) := by decide
/-- V-ER-14, V-ER-15. -/
theorem test_buserr :
    done (.buserr .read 0x0C#6 0#64) State.reset (fun t => (t.toDevice, t.reply, t.busErrors)) =
      some (Device.reset, some ⟨some 0#64, true⟩, [⟨.read, 0x0C#6⟩]) ∧
    done (.buserr .write 0x31#6 7#64) State.reset (fun t => (t.reply, t.busErrors)) =
      some (some ⟨none, true⟩, [⟨.write, 0x31#6⟩]) := by decide

/-! One step each. -/

/-- The host's placing of `WR DIN, 9`: the very next step runs it. -/
theorem test_withFetchWord :
    stepped (State.reset.withFetchWord 71 0x580000000000000009) (fun t => (t.din, t.script)) = some (9#64, []) := by decide

/-- V-XF-1, round 0: one cycle of the reference datapath, with K[0] of V-KS-1 in entry 0. -/
theorem test_cycle_encrypt :
    stepped (withScript { loaded .encrypt 0#64 0x0123456789ABCDEF#64 with rk := Vector.replicate 16 0x1B02EFFC7072#48 }
      [.round]) (fun t => (t.l, t.r, t.round)) = some (0xF0AAF0AA#32, 0xEF4A6544#32, 1#5) := by decide +kernel

/-- V-KS-1, round 0 (R131): one cycle of KSCHED, and nothing to be seen of it. -/
theorem test_cycle_ksched :
    stepped (withScript (loaded .ksched 0x133457799BBCDFF1#64 0#64) [.round])
      (fun t => (t.c, rkEntry t.rk 0#4, t.round, t.statusWord)) =
      some (0xE19955F#28, 0x1B02EFFC7072#48, 1#5, 1#64) := by decide +kernel

/-- V-RS-2, V-RS-3: a reset abandons the command in flight. -/
theorem test_reset :
    stepped (withScript { inFlight .encrypt 5#64 6#64 with dout := 7#64, key := 8#64 } [.reset]) (fun t => t.toDevice) =
      some Device.reset := by decide

/-- V-RA-2, V-RS-1. -/
theorem test_after_reset : State.reset.statusWord = 0#64 ∧ State.reset.rkdataWord = 0#64 := by decide

/-! Witnesses: what meets the hypotheses of each obligation, clause by clause. -/

/-- A step that answers a next state, for the statements about every step. -/
theorem witness_step (s : State) (fits : s.busy = s.pend.isSome) : ∃ t, step s = .next t := by
  rcases step_cases s with ⟨w, rest, _, e⟩ | ⟨rest, _, e⟩ | ⟨rest, _, e⟩ | ⟨rest, _, e⟩ | ⟨_, _, e⟩ | ⟨_, _, e⟩ <;> rw [e]
  · obtain ⟨t, h, -⟩ := exec_cases (decode w) { s with script := rest }
    exact ⟨t, h⟩
  · exact ⟨_, rfl⟩
  · unfold completionTurn
    cases pend : s.pend <;> rw [pend] at fits <;> simp [fits]
  · exact ⟨_, rfl⟩
  · unfold completionTurn
    cases pend : s.pend <;> rw [pend] at fits <;> simp [fits]
  · exact ⟨_, rfl⟩

theorem witness_DecodeOfEncodeIsTheOperation :
    (Instr.cmdIllegal 0#64).WellFormed ∧ (Instr.cmdIllegal 4#64).WellFormed ∧ (Instr.cmdIllegal 0x8000000000000001#64).WellFormed ∧
    (Instr.buserr .read 0x01#6 5#64).WellFormed ∧ (Instr.buserr .write 0x3F#6 0#64).WellFormed ∧
    Instr.ksched.WellFormed ∧ (Instr.wrKey 0xFFFFFFFFFFFFFFFF#64).WellFormed := by decide

/-- Row 4 beside the commands, and the first and last misaligned offsets. -/
theorem witness_OpcodeMapRowByRow :
    (0#64 ≠ 1#64 ∧ 0#64 ≠ 2#64 ∧ 0#64 ≠ 3#64) ∧ (4#64 ≠ 1#64 ∧ 4#64 ≠ 2#64 ∧ 4#64 ≠ 3#64) ∧
    (0x01#6).extractLsb' 0 3 ≠ 0#3 ∧ (0x3F#6).extractLsb' 0 3 ≠ 0#3 := by decide

/-- Each of the three ways to be illegal, alone. -/
theorem witness_IllegalCommandWordsByField :
    (0#64).extractLsb' 0 4 = 0x0#4 ∧ 0x4#4 ≤ (4#64).extractLsb' 0 4 ∧ 0x4#4 ≤ (0xF#64).extractLsb' 0 4 ∧
    (0x11#64).extractLsb' 4 60 ≠ 0#60 ∧ (0x8000000000000001#64).extractLsb' 4 60 ≠ 0#60 := by decide

theorem witness_StepRunsTheDecodedOperation :
    (writing State.reset offsetKey 5#64).script = .access (busWord .write offsetKey 5#64) :: [] ∧
    decodeTableWord 71 0x400000000000000001 = some .ksched := by decide

theorem witness_IdleTurnsChangeNothing :
    State.reset.busy = false ∧ State.reset.script = [] ∧
    (withScript State.reset [.completion]).busy = false ∧ (withScript State.reset [.completion]).script = .completion :: [] ∧
    (withScript State.reset [.round]).busy = false ∧ (withScript State.reset [.round]).script = .round :: [] := by decide

/-- A reset with a command in flight. -/
theorem witness_ResetLeavesTheResetState : (withScript (inFlight .encrypt 1#64 2#64) [.reset]).ResetsNext := by
  decide

/-- The three branches, at the edges of the width check. -/
theorem witness_RoundKeyWriteIsCheckedThenStored :
    (inFlight .ksched 0#64 0#64).busy = true ∧
    (State.reset.busy = false ∧ (0x0001000000000000#64).extractLsb' 48 16 ≠ 0#16) ∧
    (State.reset.busy = false ∧ (0x0000FFFFFFFFFFFF#64).extractLsb' 48 16 = 0#16) := by decide

theorem witness_ReadsHaveNoSideEffect :
    Instr.rdCmd.dir = .read ∧ Instr.rdRsvd38.dir = .read ∧ (Instr.buserr .read 0x0C#6 0#64).dir = .read := by decide

theorem witness_NoAccessReadsTheKeyBack : State.reset.cfg.checkKeyParity = false := by decide

theorem witness_MisalignedAccessOnlyAnswersAndRecords :
    (0x01#6).extractLsb' 0 3 ≠ 0#3 ∧ (0x0C#6).extractLsb' 0 3 ≠ 0#3 ∧ (0x3F#6).extractLsb' 0 3 ≠ 0#3 := by decide

/-- A misaligned access, and an aligned one. -/
theorem witness_FaultedAccessesStayRecorded :
    (∃ t, step (writing State.reset 0x31#6 7#64) = .next t) ∧
    (addrOf (busWord .write 0x31#6 7#64)).extractLsb' 0 3 ≠ 0#3 ∧
    (∃ t, step (writing State.reset offsetKey 7#64) = .next t) ∧
    (addrOf (busWord .write offsetKey 7#64)).extractLsb' 0 3 = 0#3 :=
  ⟨witness_step _ rfl, by decide, witness_step _ rfl, by decide⟩

/-- Each branch of the two lists of checks, in their order. -/
theorem witness_WritesAreCheckedInOrder :
    (inFlight .encrypt 0#64 0#64).busy = true ∧
    (State.reset.busy = false ∧ ¬(4#64 = 1#64 ∨ 4#64 = 2#64 ∨ 4#64 = 3#64)) ∧
    (State.reset.busy = false ∧ State.reset.rkValid ≠ 0xFFFF#16) ∧
    (parityChecked.busy = false ∧ parityChecked.cfg.checkKeyParity = true ∧ parityOk parityChecked.key = false) ∧
    (allValid.busy = false ∧ allValid.rkValid = 0xFFFF#16 ∧ allValid.cfg.checkKeyParity = false) ∧
    (0x0001000000000000#64).extractLsb' 48 16 ≠ 0#16 ∧ (0x0000FFFFFFFFFFFF#64).extractLsb' 48 16 = 0#16 := by
  decide

/-- The two rejections, and both ways to pass the parity check. -/
theorem witness_KschedIsCheckedThenAccepted :
    (inFlight .decrypt 0#64 0#64).busy = true ∧
    (parityChecked.busy = false ∧ parityChecked.cfg.checkKeyParity = true ∧ parityOk parityChecked.key = false) ∧
    (State.reset.busy = false ∧ State.reset.cfg.checkKeyParity = false) ∧
    (parityGood.busy = false ∧ parityGood.cfg.checkKeyParity = true ∧ parityOk parityGood.key = true) := by
  decide

/-- Completion at the end of the script, and as an event of it. -/
theorem witness_KschedCompletionFillsTheFile :
    ((inFlight .ksched 1#64 2#64).CompletesNext ∧ (inFlight .ksched 1#64 2#64).pend = some ⟨.ksched, 1#64, 2#64⟩) ∧
    (withScript (inFlight .ksched 1#64 2#64) [.completion]).CompletesNext := by decide

theorem witness_EncryptTransformsInAscendingOrder :
    (inFlight .ksched 0#64 0#64).busy = true ∧
    (State.reset.busy = false ∧ State.reset.rkValid ≠ 0xFFFF#16) ∧
    (allValid.busy = false ∧ allValid.rkValid = 0xFFFF#16) ∧
    ((inFlight .encrypt 1#64 2#64).CompletesNext ∧
      (inFlight .encrypt 1#64 2#64).pend = some ⟨.encrypt, 1#64, 2#64⟩) := by decide

theorem witness_DecryptTransformsInDescendingOrder :
    (inFlight .encrypt 0#64 0#64).busy = true ∧
    ({ State.reset with rkValid := 0x7FFF#16 }.busy = false ∧ { State.reset with rkValid := 0x7FFF#16 }.rkValid ≠ 0xFFFF#16) ∧
    (allValid.busy = false ∧ allValid.rkValid = 0xFFFF#16) ∧
    ((inFlight .decrypt 1#64 2#64).CompletesNext ∧
      (inFlight .decrypt 1#64 2#64).pend = some ⟨.decrypt, 1#64, 2#64⟩) := by decide

theorem witness_IllegalCommandSetsOnlyErr :
    (0#64 ≠ 1#64 ∧ 0#64 ≠ 2#64 ∧ 0#64 ≠ 3#64) ∧ (inFlight .ksched 0#64 0#64).busy = true ∧ State.reset.busy = false := by
  decide

/-- A `CMD` write and an `RKDATA` write that leave a code. -/
theorem witness_RejectedWriteChangesOnlyErr :
    (∃ t, exec .encrypt State.reset = .next t ∧ t.err ≠ .none) ∧ Instr.encrypt.dir = .write ∧
      Instr.encrypt.addr = 0x00#6 ∧
    (∃ t, exec (.wrRkdata 0x0001000000000000#64) State.reset = .next t ∧ t.err ≠ .none) ∧
      (Instr.wrRkdata 0x0001000000000000#64).addr = 0x30#6 :=
  ⟨⟨_, rfl, by decide⟩, rfl, rfl, ⟨_, rfl, by decide⟩, rfl⟩

theorem witness_ParityIsCheckedOnlyWhereEnforced :
    (parityChecked.busy = false ∧ parityChecked.cfg.checkKeyParity = true ∧ parityOk parityChecked.key = false) ∧
    State.reset.busy = false ∧ State.reset.cfg.checkKeyParity = false := by decide

theorem witness_BusyWindowTurnsWritesAway :
    (writing (inFlight .encrypt 0#64 0#64) offsetCmd 0#64).busy = true ∧
    (writing (inFlight .encrypt 0#64 0#64) offsetCmd 0#64).WritesNext offsetCmd 0#64 ∧
    (writing (inFlight .ksched 0#64 0#64) offsetRkdata 5#64).busy = true ∧
    (writing (inFlight .ksched 0#64 0#64) offsetRkdata 5#64).WritesNext offsetRkdata 5#64 := by decide

/-- A reset, an acceptance of each command, a completion, and none of them. -/
theorem witness_CommandStatusFollowsTheCommand :
    (∀ s ∈ [withScript allValid [.reset], writing allValid offsetCmd 1#64, writing allValid offsetCmd 2#64,
      writing allValid offsetCmd 3#64, inFlight .decrypt 0#64 0#64, writing allValid offsetKey 1#64],
      ∃ t, step s = .next t) ∧
    (withScript allValid [.reset]).ResetsNext ∧ (writing allValid offsetCmd 1#64).AcceptsNext .ksched ∧
    (writing allValid offsetCmd 2#64).AcceptsNext .encrypt ∧ (writing allValid offsetCmd 3#64).AcceptsNext .decrypt ∧
    (inFlight .decrypt 0#64 0#64).CompletesNext ∧
    ((writing (inFlight .ksched 0#64 0#64) offsetCmd 3#64).busy = true ∧
      (writing (inFlight .ksched 0#64 0#64) offsetCmd 3#64).WritesNext offsetCmd 3#64) ∧
    (¬(writing allValid offsetKey 1#64).ResetsNext ∧
      (∀ op ∈ [Command.ksched, .encrypt, .decrypt], ¬(writing allValid offsetKey 1#64).AcceptsNext op) ∧
      ¬(writing allValid offsetKey 1#64).CompletesNext) := by
  refine ⟨fun s h => witness_step s ?_, by decide⟩
  revert s
  decide

/-- The writers of `RK_VALID` and of `RK` not shown above: KSCHED's completion, and a stored round key at both ends of
the file. -/
theorem witness_ValidBitsHaveTheseWriters :
    ((inFlight .ksched 1#64 2#64).CompletesNext ∧ (inFlight .ksched 1#64 2#64).pend = some ⟨.ksched, 1#64, 2#64⟩) ∧
    (writing State.reset offsetRkdata 5#64).StoresNext 5#48 ∧
    (writing { State.reset with rkidx := 15#4 } offsetRkdata 0xFFFFFFFFFFFF#64).StoresNext 0xFFFFFFFFFFFF#48 ∧
    (∃ t, step (writing State.reset offsetRkdata 5#64) = .next t) ∧
    ∃ t, step (inFlight .ksched 1#64 2#64) = .next t :=
  ⟨by decide, by decide, by decide, witness_step _ rfl, witness_step _ rfl⟩

theorem witness_DoutHasTheseWriters :
    (inFlight .encrypt 1#64 2#64).CompletesNext ∧ (inFlight .encrypt 1#64 2#64).pend = some ⟨.encrypt, 1#64, 2#64⟩ ∧
    (inFlight .decrypt 1#64 2#64).CompletesNext ∧ (inFlight .decrypt 1#64 2#64).pend = some ⟨.decrypt, 1#64, 2#64⟩ ∧
    (∃ t, step (inFlight .encrypt 1#64 2#64) = .next t) ∧ ∃ t, step (inFlight .decrypt 1#64 2#64) = .next t :=
  ⟨by decide, rfl, by decide, rfl, witness_step _ rfl, witness_step _ rfl⟩

/-- The three clauses: a completion, a store, and a valid entry that stays under another access. -/
theorem witness_RoundKeysHaveTheseWriters :
    ((inFlight .ksched 1#64 2#64).Inv ∧ (inFlight .ksched 1#64 2#64).CompletesNext) ∧
    ((writing State.reset offsetRkdata 5#64).Inv ∧ (writing State.reset offsetRkdata 5#64).StoresNext 5#48) ∧
    (writing allValid offsetKey 1#64).Inv ∧ ¬(writing allValid offsetKey 1#64).ResetsNext ∧
      allValid.rkValid.getLsbD (15#4).toNat = true ∧ (∃ t, step (writing allValid offsetKey 1#64) = .next t) :=
  ⟨by decide, by decide, by decide, by decide, by decide, witness_step _ rfl⟩

/-- Each register written while busy, and one step that writes none of them. -/
theorem witness_HostRegistersChangeOnlyByTheirWrite :
    (writing (inFlight .ksched 0#64 0#64) offsetKey 1#64).WritesNext offsetKey 1#64 ∧
    (writing (inFlight .ksched 0#64 0#64) offsetDin 2#64).WritesNext offsetDin 2#64 ∧
    (writing (inFlight .ksched 0#64 0#64) offsetRkidx 0x1F#64).WritesNext offsetRkidx 0x1F#64 ∧
    (∃ t, step (writing (inFlight .ksched 0#64 0#64) offsetKey 1#64) = .next t) ∧
    (∃ t, step (inFlight .ksched 0#64 0#64) = .next t) ∧ ¬(inFlight .ksched 0#64 0#64).ResetsNext :=
  ⟨by decide, by decide, by decide, witness_step _ rfl, witness_step _ rfl, by decide⟩

/-- A `CMD` write and an `RKDATA` write, carried out and turned away, and a step that is neither. -/
theorem witness_ErrReportsTheLatestCheckedWrite :
    (∀ s ∈ [withScript State.reset [.reset], writing allValid offsetCmd 2#64, writing State.reset offsetCmd 2#64,
      writing State.reset offsetRkdata 5#64, writing State.reset offsetRkdata 0x0001000000000000#64,
      writing State.reset offsetDin 5#64], ∃ t, step s = .next t) ∧
    (writing allValid offsetCmd 2#64).WritesNext offsetCmd 2#64 ∧
    (writing State.reset offsetRkdata 5#64).WritesNext offsetRkdata 5#64 := by
  refine ⟨fun s h => witness_step s ?_, by decide⟩
  revert s
  decide

theorem witness_ParametersNeverChange : ∃ t, step (writing allValid offsetCmd 1#64) = .next t := witness_step _ rfl

theorem witness_LatencyParametersAreNeverRead : ∃ t, step (inFlight .ksched 3#64 4#64) = .next t := witness_step _ rfl

/-- States that meet the invariant: idle, and with each command in flight. -/
theorem witness_EveryStepKeepsTheInvariant :
    State.reset.Inv ∧ (inFlight .ksched 1#64 2#64).Inv ∧ (inFlight .encrypt 1#64 2#64).Inv ∧
    (inFlight .decrypt 1#64 2#64).Inv ∧ ∃ t, step (inFlight .decrypt 1#64 2#64) = .next t :=
  ⟨by decide, by decide, by decide, by decide, witness_step _ rfl⟩

/-- A block in flight whose datapath is at its start, with a cycle to come. -/
theorem witness_EveryStepKeepsTheDatapathOnCourse :
    (withScript (loaded .decrypt 1#64 2#64) [.round]).Inv ∧
    (withScript (loaded .decrypt 1#64 2#64) [.round]).DatapathOnCourse standardTables ∧
    (withScript (loaded .ksched 1#64 2#64) [.round]).DatapathOnCourse standardTables ∧
    ∃ t, step (withScript (loaded .decrypt 1#64 2#64) [.round]) = .next t := by
  refine ⟨by decide, ?_, ?_, witness_step _ rfl⟩
  · rintro p ⟨⟩
    show _ = feistelRounds standardTables (initialHalves standardTables 2#64) (List.take 0 _)
    rw [List.take_zero, feistelRounds_nil]
    rfl
  · rintro p ⟨⟩
    exact ⟨rfl, fun j before => absurd before (Nat.not_lt_zero _)⟩

/-- A state whose sixteen rounds are done, for each command. -/
def roundsDone (op : Command) (ks bs : Word64) : State :=
  { inFlight op ks bs with
    rk := deriveRoundKeys standardTables ks
    c := (keyHalves standardTables ks 16).1
    d := (keyHalves standardTables ks 16).2
    l := (feistelRounds standardTables (initialHalves standardTables bs)
      (keysInOrder op (deriveRoundKeys standardTables ks))).1
    r := (feistelRounds standardTables (initialHalves standardTables bs)
      (keysInOrder op (deriveRoundKeys standardTables ks))).2
    round := 16#5 }

theorem witness_DatapathHoldsTheCommittedResult (op : Command) (ks bs : Word64) :
    (roundsDone op ks bs).DatapathOnCourse standardTables ∧ (roundsDone op ks bs).pend = some ⟨op, ks, bs⟩ ∧
    (roundsDone op ks bs).round = 16#5 := by
  refine ⟨?_, rfl, rfl⟩
  rintro p ⟨⟩
  cases op
  · exact ⟨rfl, fun j _ => rkEntry_deriveRoundKeys standardTables ks j⟩
  all_goals
    have all : ∀ keys : List RoundKey, keys.length = 16 → keys.take 16 = keys := fun keys h => by rw [← h]; simp
    simp only [reduceCtorEq, if_false, roundsDone]
    rw [show (16#5).toNat = 16 from rfl, all _ (by simp [keysInOrder])]

theorem witness_NoStepStopsUnderTheInvariant : (withScript (inFlight .ksched 1#64 2#64) [.completion]).Inv := by
  decide

/-- Two states that a host cannot tell apart and that are not equal. -/
theorem witness_NothingObservedDependsOnHiddenState :
    State.reset.Inv ∧ State.reset.LooksLike { State.reset with rk := Vector.replicate 16 5#48, l := 7#32, round := 9#5 } ∧
    State.reset ≠ { State.reset with rk := Vector.replicate 16 5#48, l := 7#32, round := 9#5 } ∧
    ∃ t, step State.reset = .next t :=
  ⟨by decide, by decide, by decide, _, rfl⟩

theorem witness_DatapathCyclesAreInvisible :
    (withScript (inFlight .ksched 1#64 2#64) [.round]).Inv ∧
    (withScript (inFlight .ksched 1#64 2#64) [.round]).script.head? = some .round := by decide

/-- A run with a command still in flight when the script ends, and one with nothing to do. -/
theorem witness_EveryRunFinishes :
    (withScript (inFlight .ksched 1#64 2#64) [.round, .access 0#71]).Inv ∧ State.reset.Inv := by decide

/-- The whole script of hypotheses, for each of the two commands, with and without the parity check: quiet events of
each kind in each gap, and one more event after. -/
def cipherRun (s : State) (op : Command) (quiet : List Event) : State :=
  withScript s
    (.access (busWord .write offsetCmd 1#64) :: quiet ++ .completion :: quiet ++
      .access (busWord .write offsetDin 9#64) :: quiet ++ .access (busWord .write offsetCmd op.word) :: quiet ++
      .completion :: [.round])

/-- A datapath cycle, a read of `STATUS`, a write of `KEY`, and a misaligned read. -/
def quietEvents : List Event :=
  [.round, .access (rd .status), .access (wr .key 7#64), .access (busWord .read 0x0C#6 0#64)]

theorem witness_ScheduleThenTransformIsTheCipher :
    (∀ op ∈ [Command.encrypt, .decrypt], ∀ s ∈ [State.reset, parityGood], ∀ quiet ∈ [[], quietEvents],
      op ≠ .ksched ∧ (cipherRun s op quiet).busy = false ∧
      ((cipherRun s op quiet).cfg.checkKeyParity = false ∨ parityOk (cipherRun s op quiet).key = true) ∧
      ∀ e ∈ quiet ++ quiet ++ quiet ++ quiet, e.quiet = true) ∧
    ∀ s op quiet, (cipherRun s op quiet).script =
      .access (busWord .write offsetCmd 1#64) :: quiet ++ .completion :: quiet ++
      .access (busWord .write offsetDin 9#64) :: quiet ++ .access (busWord .write offsetCmd op.word) :: quiet ++
      .completion :: [.round] :=
  ⟨by decide, fun _ _ _ => rfl⟩

/-- The first and last row and column of a box, and of the array. -/
theorem witness_SubstitutionWorksGroupByGroup :
    13 = (boxS1.getD (2 * ((0b111111#6).getLsbD 5).toNat + ((0b111111#6).getLsbD 0).toNat) []).getD
      (8 * ((0b111111#6).getLsbD 4).toNat + 4 * ((0b111111#6).getLsbD 3).toNat +
        2 * ((0b111111#6).getLsbD 2).toNat + ((0b111111#6).getLsbD 1).toNat) 0 ∧
    14 = (boxS1.getD (2 * ((0#6).getLsbD 5).toNat + ((0#6).getLsbD 0).toNat) []).getD
      (8 * ((0#6).getLsbD 4).toNat + 4 * ((0#6).getLsbD 3).toNat + 2 * ((0#6).getLsbD 2).toNat +
        ((0#6).getLsbD 1).toNat) 0 ∧
    0 < 4 ∧ 3 < 4 ∧ 0 < 8 ∧ 7 < 8 := by decide

/-- Two keys that differ in a parity bit only. -/
theorem witness_ParityBitsReachNoRoundKey :
    (∀ i < 64, i % 8 ≠ 7 → (0x133457799BBCDFF1#64).getMsbD i = (0x133457799BBCDFF0#64).getMsbD i) ∧
    0x133457799BBCDFF1#64 ≠ 0x133457799BBCDFF0#64 := by decide

theorem witness_SboxRowsAreBijections :
    boxS8 ∈ standardTables.sboxes ∧ sboxRow 0b011110#6 = sboxRow 0b011110#6 := by decide

/-- A parity mask, and the first and last round. -/
theorem witness_RoundKeysCopyKeyBits :
    (∀ i < 64, i % 8 ≠ 7 → (0x0101010101010101#64).getMsbD i = false) ∧ 0 < 16 ∧ 15 < 16 := by decide

/-- Sixteen equal round keys. -/
theorem witness_TransformComplementsAndInverts :
    ∀ i j : BitVec 4, rkEntry (Vector.replicate 16 5#48) i = rkEntry (Vector.replicate 16 5#48) j := by decide

/-- The first and last address of the window, and the two beside it. -/
theorem witness_WindowStartsAtTheBase :
    windowOffset Config.descoreBase = some 0x00#6 ∧ windowOffset (Config.descoreBase + 63) = some 0x3F#6 ∧
    windowOffset (Config.descoreBase + 64) = none := by
  simp [windowOffset]

/-! The longest evaluations: whole schedules and whole transforms. -/

/-- V-XF-4, second row, from the key to the block. -/
theorem test_transform_of_key :
    transform standardTables 0#64 (deriveRoundKeys standardTables 0x133457799BBCDFF1#64).toList =
      0x948A43F98A834F7E#64 := by decide +kernel

/-- V-KS-10 steps 4 and 5: KSCHED's completion. -/
theorem test_complete_ksched :
    stepped (inFlight .ksched 0x133457799BBCDFF1#64 0#64)
      (fun t => (rkEntry t.rk 0#4, rkEntry t.rk 15#4, t.statusWord, t.pend)) =
      some (0x1B02EFFC7072#48, 0xCB3D8B0E17F5#48, 0xFFFF0006#64, none) := by decide +kernel

/-- V-XF-7, first row: ENCRYPT's completion. -/
theorem test_complete_encrypt :
    stepped (withScript (inFlight .encrypt 0#64 0#64) [.completion]) (fun t => (t.dout, t.statusWord)) =
      some (0xEF0A1534940F0F2D#64, 0xFFFF0006#64) := by decide +kernel

/-- V-XF-7, first and third rows: DECRYPT's completion. -/
theorem test_complete_decrypt :
    stepped (inFlight .decrypt 0#64 0#64) (fun t => t.dout) = some 0xED440D06FDF0B033#64 ∧
    stepped (inFlight .decrypt 0#64 0x648BFFA1C00EB56D#64) (fun t => t.dout) = some 0x0123456789ABCDEF#64 := by
  decide +kernel

/-- V-ER-12: completion leaves `ERR`. -/
theorem test_complete_keeps_err :
    stepped { inFlight .ksched 0#64 0#64 with err := .busy } (fun t => (t.err, t.busy, t.done)) =
      some (.busy, false, true) := by decide +kernel

end Sys2Proof.Tests
end

/-! Proofs of the statements of spec/00_scope.md: the step of an access (O7), and the latencies that no rule reads
(O34). -/

namespace Sys2Proof.Machine

/-! The operation that `withFetchWord` places. -/

/-- A table word that the decoder reads is a bus-operation word, and `decode` reads the same operation from it. -/
theorem decode_of_decodeTableWord {nbits w : Nat} {i : Instr} (reads : decodeTableWord nbits w = some i) :
    decode (BitVec.ofNat 71 (w % 2 ^ nbits)) = i := by
  unfold decodeTableWord decodeNat at reads
  split at reads
  · exact Option.some.inj reads
  · cases reads

/-- The step after `withFetchWord` takes that event off again and runs the operation of its word. -/
theorem step_withFetchWord (s : State) (nbits w : Nat) :
    step (s.withFetchWord nbits w) = exec (decode (BitVec.ofNat 71 (w % 2 ^ nbits))) s :=
  step_access (s.withFetchWord nbits w) _ s.script (State.withFetchWord_script s nbits w)

/-- Settles O7: both halves are the step of a script that begins with an access. -/
theorem stepRunsTheDecodedOperation : Obligations.StepRunsTheDecodedOperation := by
  refine ⟨step_access, fun s nbits w i reads => ?_⟩
  rw [step_withFetchWord, decode_of_decodeTableWord reads]

/-! The latencies `T_KS` and `T_XF` (R6, R236). -/

/-- The machine with other latencies. -/
def State.withLatencies (s : State) (tKs tXf : Nat) : State :=
  { s with cfg := { s.cfg with tKs := tKs, tXf := tXf } }

section
variable (s : State) (a b : Nat)
@[simp] theorem State.withLatencies_toDevice : (s.withLatencies a b).toDevice = s.toDevice := rfl
@[simp] theorem State.withLatencies_tables : (s.withLatencies a b).cfg.tables = s.cfg.tables := rfl
@[simp] theorem State.withLatencies_script : (s.withLatencies a b).script = s.script := rfl
@[simp] theorem State.onDevice_withLatencies (f : Device → Device) :
    (s.withLatencies a b).onDevice f = (s.onDevice f).withLatencies a b := rfl
@[simp] theorem State.answerWrite_withLatencies :
    (s.withLatencies a b).answerWrite = s.answerWrite.withLatencies a b := rfl
@[simp] theorem State.answerRead_withLatencies (v : Word64) :
    (s.withLatencies a b).answerRead v = (s.answerRead v).withLatencies a b := rfl
@[simp] theorem State.raiseBusError_withLatencies (dir : Dir) (addr : Offset) :
    (s.withLatencies a b).raiseBusError dir addr = (s.raiseBusError dir addr).withLatencies a b := rfl
@[simp] theorem State.writeCmd_withLatencies (op : Option Command) :
    (s.withLatencies a b).writeCmd op = (s.writeCmd op).withLatencies a b := rfl
end

/-- A meaning that does not read the latencies: from other latencies it answers the same next state with those. -/
def LatencyBlind (meaning : State → Host.Outcome State Fault Refusal) : Prop :=
  ∀ (s t : State) (a b : Nat), meaning s = .next t → meaning (s.withLatencies a b) = .next (t.withLatencies a b)

/-- A meaning that always answers a next state reads no latency when its update commutes with `withLatencies`. -/
theorem latencyBlind_of_commutes {update : State → State}
    (commutes : ∀ s a b, update (s.withLatencies a b) = (update s).withLatencies a b) :
    LatencyBlind fun s => .next (update s) := by
  rintro s t a b ⟨⟩
  exact congrArg _ (commutes s a b)

/-- No operation reads the latencies: each is built of named operations on the state, which commute with them. -/
theorem exec_latencyBlind (i : Instr) : LatencyBlind (exec i) := by
  cases i with
  | ksched => exact latencyBlind_of_commutes fun s a b => s.writeCmd_withLatencies a b (some .ksched)
  | encrypt => exact latencyBlind_of_commutes fun s a b => s.writeCmd_withLatencies a b (some .encrypt)
  | decrypt => exact latencyBlind_of_commutes fun s a b => s.writeCmd_withLatencies a b (some .decrypt)
  | cmdIllegal _ => exact latencyBlind_of_commutes fun s a b => s.writeCmd_withLatencies a b none
  | buserr dir addr _ => exact latencyBlind_of_commutes fun s a b => s.raiseBusError_withLatencies a b dir addr
  | _ => exact latencyBlind_of_commutes fun _ _ _ => by simp

/-- A datapath cycle reads the tables only. -/
theorem datapathTurn_latencyBlind : LatencyBlind datapathTurn :=
  latencyBlind_of_commutes fun s a b => s.onDevice_withLatencies a b fun m => m.cycle s.cfg.tables

/-- A reset reads no parameter. -/
theorem resetTurn_latencyBlind : LatencyBlind resetTurn :=
  latencyBlind_of_commutes fun s a b => s.onDevice_withLatencies a b fun _ => Device.reset

/-- A completion turn reads the tables only, whether it completes a command or passes. -/
theorem completionTurn_latencyBlind : LatencyBlind completionTurn := by
  intro s t a b answers
  rcases completionTurn_cases s with ⟨idle, e⟩ | ⟨p, busy, pend, e⟩ | ⟨-, -, e⟩ <;> rw [e] at answers <;> cases answers
  · simp [completionTurn, idle]
  · simp [completionTurn, busy, pend]

/-- Whose turn it is does not depend on the latencies, and taking the event keeps them. -/
theorem nextTurn_withLatencies (s : State) (a b : Nat) :
    nextTurn (s.withLatencies a b) = ((nextTurn s).1, (nextTurn s).2.withLatencies a b) := by
  cases script : s.script <;> simp only [nextTurn, State.withLatencies_script, script] <;> rfl

/-- No step reads the latencies, since no turn does. -/
theorem step_latencyBlind : LatencyBlind step := by
  intro s t a b
  unfold step
  rw [nextTurn_withLatencies]
  obtain ⟨turn, s'⟩ := nextTurn s
  cases turn with
  | access w => exact exec_latencyBlind (decode w) s' t a b
  | round => exact datapathTurn_latencyBlind s' t a b
  | completion => exact completionTurn_latencyBlind s' t a b
  | reset => exact resetTurn_latencyBlind s' t a b
  | idle => exact latencyBlind_of_commutes (update := id) (fun _ _ _ => rfl) s' t a b

/-- Settles O34: it is `step_latencyBlind`, with `withLatencies` written out. -/
theorem latencyParametersAreNeverRead : Obligations.LatencyParametersAreNeverRead :=
  step_latencyBlind

end Sys2Proof.Machine

/-! Proofs of the statements of spec/10_state.md: what each step writes (O8, O26 to O32), the invariant of a run (O36),
and what no access shows (O15, O40). -/

namespace Sys2Proof.Machine

/-! ## The registers after each shared operation

The facts that Laws/Ops.lean has for acceptance and completion, for a cycle of the datapath and for the two checked
writes. -/

/-- What a cycle of the datapath leaves alone, whether or not a round is left: all but `RK`, the halves and `ROUND`. -/
@[simp] theorem cycle_common (t : Tables) (m : Device) :
    (m.cycle t).key = m.key ∧ (m.cycle t).din = m.din ∧ (m.cycle t).dout = m.dout ∧ (m.cycle t).rkidx = m.rkidx ∧
    (m.cycle t).rkValid = m.rkValid ∧ (m.cycle t).busy = m.busy ∧ (m.cycle t).done = m.done ∧
    (m.cycle t).err = m.err ∧ (m.cycle t).pend = m.pend := by
  rcases cycle_cases t m with ⟨p, -, -, -, cycle⟩ | cycle <;> rw [cycle]
  · split <;> simp
  · simp

/-- With no command in flight a cycle does nothing. -/
theorem cycle_of_idle (t : Tables) {m : Device} (idle : m.busy = false) : m.cycle t = m := by
  simp [Device.cycle, idle]

/-- A cycle counts to 16 and no further (spec/41_key_schedule.md R131, spec/42_feistel.md R156). -/
theorem cycle_round_le (t : Tables) {m : Device} (bound : m.round.toNat ≤ 16) : (m.cycle t).round.toNat ≤ 16 := by
  rcases cycle_cases t m with ⟨p, -, -, below, cycle⟩ | cycle <;> rw [cycle]
  · split <;> simp <;> omega
  · exact bound

/-- A cycle writes no valid entry: KSCHED's writes one, and no entry is valid while a KSCHED is in flight. -/
theorem cycle_rkEntry_of_valid (t : Tables) {m : Device} (fits : m.ValidBitsFitCommand) {j : BitVec 4}
    (valid : rkValidBit m.rkValid j = true) : rkEntry (m.cycle t).rk j = rkEntry m.rk j := by
  rcases cycle_cases t m with ⟨p, pend, -, -, cycle⟩ | cycle <;> rw [cycle]
  by_cases ksched : p.op = .ksched
  · rw [fits p pend, if_pos ksched] at valid
    simp at valid
  · rw [if_neg ksched]; rfl

/-- A `CMD` write leaves the outcome of its check in `ERR` (spec/60_exceptions.md R203). -/
theorem writeCmd_err (s : State) (op : Option Command) :
    (s.writeCmd op).err = s.toDevice.commandCheck s.cfg.checkKeyParity op := by
  rcases writeCmd_cases s op with ⟨command, -, check, is⟩ | ⟨code, -, check, is⟩ <;> rw [check, is]
  · simp [accept_common]
  · rfl

/-- An `RKDATA` write leaves the outcome of its check in `ERR` (R203). -/
theorem writeRkdata_err (m : Device) (wdata : Word64) :
    (m.writeRkdata wdata (m.rkdataCheck wdata)).err = m.rkdataCheck wdata := by
  rcases writeRkdata_cases m wdata with ⟨check, is⟩ | ⟨code, -, check, is⟩
  · rw [is, check]; rfl
  · rw [is, check]; rfl

/-- While busy a `CMD` write does nothing but set `ERR` to BUSY and answer (R203). -/
theorem writeCmd_of_busy {s : State} (busy : s.busy = true) (op : Option Command) :
    s.writeCmd op = { s with toDevice := { s.toDevice with err := .busy }, reply := some ⟨none, false⟩ } := by
  have device : (s.writeCmd op).toDevice = { s.toDevice with err := .busy } := by
    rw [State.writeCmd_toDevice, commandCheck_of_busy busy]
    cases op <;> rfl
  rw [← device]
  rfl

/-- While busy an `RKDATA` write does nothing but set `ERR` to BUSY and answer (R203). -/
theorem writeRkdata_of_busy {s : State} (busy : s.busy = true) (wdata : Word64) :
    (s.onDevice fun m => m.writeRkdata wdata (m.rkdataCheck wdata)).answerWrite =
      { s with toDevice := { s.toDevice with err := .busy }, reply := some ⟨none, false⟩ } := by
  have device : s.toDevice.writeRkdata wdata (s.toDevice.rkdataCheck wdata) = { s.toDevice with err := .busy } := by
    rw [rkdataCheck_of_busy busy]
    rfl
  rw [← device]
  rfl

/-! ## What a write's word does -/

/-- A write to `CMD`, whatever its word, is a checked `CMD` write of the command the word names, or of none. -/
theorem exec_command_write (x : Word64) :
    ∃ op : Option Command, (∀ c, op = some c ↔ x = c.word) ∧
      ∀ s, exec (decode (busWord .write offsetCmd x)) s = .next (s.writeCmd op) := by
  rw [offsetCmd, decode_command]
  split
  · exact ⟨some .ksched, fun c => by cases c <;> simp [Command.word, *], fun _ => rfl⟩
  split
  · exact ⟨some .encrypt, fun c => by cases c <;> simp [Command.word, *], fun _ => rfl⟩
  split
  · exact ⟨some .decrypt, fun c => by cases c <;> simp [Command.word, *], fun _ => rfl⟩
  · exact ⟨none, fun c => by cases c <;> simp [Command.word, *], fun _ => rfl⟩

/-- R80 rows 9, 11, 15 and 17: the operations of the writes to `KEY`, `DIN`, `RKIDX` and `RKDATA`. -/
@[simp] theorem decode_register_write (x : Word64) :
    decode (busWord .write offsetKey x) = .wrKey x ∧ decode (busWord .write offsetDin x) = .wrDin x ∧
    decode (busWord .write offsetRkidx x) = .wrRkidx x ∧ decode (busWord .write offsetRkdata x) = .wrRkdata x := by
  simp [decode_busWord, offsetKey, offsetDin, offsetRkidx, offsetRkdata]

/-- A step whose next event is a write runs the decoded operation on the machine with that event taken. -/
theorem step_of_writes {s : State} {offset : Offset} {x : Word64} (next : s.WritesNext offset x) :
    step s = exec (decode (busWord .write offset x)) s.afterEvent :=
  step_access s _ _ (script_of_head next)

/-- The next event writes one word to one offset. -/
theorem writesNext_inj {s : State} {a b : Offset} {x y : Word64} (first : s.WritesNext a x)
    (second : s.WritesNext b y) : a = b ∧ x = y := by
  have same := first.symm.trans second
  simpa [busWord_inj] using same

/-- The next `CMD` write is accepted with a command exactly when it carries it and its check passes. -/
theorem acceptsNext_iff {s : State} {x : Word64} (next : s.WritesNext offsetCmd x) (op : Command) :
    s.AcceptsNext op ↔ x = op.word ∧ s.toDevice.commandCheck s.cfg.checkKeyParity (some op) = .none := by
  rw [commandCheck_eq_none_iff]
  constructor
  · rintro ⟨idle, accepted, ready⟩
    refine ⟨(writesNext_inj next accepted).2, idle, ?_⟩
    cases op <;> simpa [Device.rkReady] using ready
  · rintro ⟨rfl, idle, ready⟩
    refine ⟨idle, next, ?_⟩
    cases op <;> simpa [Device.rkReady] using ready

/-- The next `RKDATA` write is stored as a round key exactly when it carries it and its check passes. -/
theorem storesNext_iff {s : State} {x : Word64} (next : s.WritesNext offsetRkdata x) (v : RoundKey) :
    s.StoresNext v ↔ x = v.setWidth 64 ∧ s.toDevice.rkdataCheck x = .none := by
  rw [rkdataCheck_eq_none_iff]
  constructor
  · rintro ⟨idle, stored⟩
    obtain ⟨-, rfl⟩ := writesNext_inj next stored
    exact ⟨rfl, idle, by rw [roundKeyExcess_eq_zero_iff, roundKeyField_setWidth]⟩
  · rintro ⟨rfl, idle, -⟩
    exact ⟨idle, next⟩

/-- A step that completes is a completion turn, with the event taken that made it. -/
theorem step_of_completesNext {s : State} (next : s.CompletesNext) : step s = completionTurn s.afterEvent := by
  obtain ⟨busy, script | head⟩ := next
  · have same : s.afterEvent = s := by rw [State.afterEvent, script, List.tail_nil, ← script]
    rw [same]
    simp [step, nextTurn, script, busy]
  · have script := script_of_head head
    simp only [step, nextTurn]
    rw [script]
    rfl

/-! ## DESCORE after a step, from the event that made it

The other direction of `effect_of_step`. -/

section
variable {s t : State} (answers : step s = .next t)
include answers

/-- A reset leaves the reset values. -/
theorem toDevice_of_resets (next : s.ResetsNext) : t.toDevice = Device.reset := by
  have script := script_of_head next
  unfold step nextTurn at answers
  rw [script] at answers
  cases answers
  rfl

/-- A write to `CMD`: the checked write of the command its word names, or of none. -/
theorem toDevice_of_command_write {x : Word64} (next : s.WritesNext offsetCmd x) :
    ∃ op : Option Command, (∀ c, op = some c ↔ x = c.word) ∧ t.toDevice = (s.writeCmd op).toDevice := by
  obtain ⟨op, carries, runs⟩ := exec_command_write x
  rw [step_of_writes next, runs] at answers
  cases answers
  exact ⟨op, carries, rfl⟩

/-- An accepted `CMD` write: its command's acceptance. -/
theorem toDevice_of_accepts {op : Command} (next : s.AcceptsNext op) :
    t.toDevice = s.toDevice.accept s.cfg.tables op := by
  have ⟨_, written, _⟩ := next
  obtain ⟨-, passes⟩ := (acceptsNext_iff written op).mp next
  obtain ⟨named, carries, is⟩ := toDevice_of_command_write answers written
  obtain rfl := (carries op).mpr rfl
  rw [is, State.writeCmd_toDevice, passes]
  rfl

/-- A write to `RKDATA`: the checked write. -/
theorem toDevice_of_round_key_write {x : Word64} (next : s.WritesNext offsetRkdata x) :
    t.toDevice = s.toDevice.writeRkdata x (s.toDevice.rkdataCheck x) := by
  rw [step_of_writes next] at answers
  simp only [decode_register_write] at answers
  cases answers
  rfl

/-- An accepted `RKDATA` write: the round key stored. -/
theorem toDevice_of_stores {v : RoundKey} (next : s.StoresNext v) : t.toDevice = s.toDevice.storeRoundKey v := by
  have ⟨_, written⟩ := next
  obtain ⟨-, passes⟩ := (storesNext_iff written v).mp next
  rw [toDevice_of_round_key_write answers written, passes]
  simp [Device.writeRkdata, roundKeyField_setWidth]

/-- A completion step: the completion of the command recorded. -/
theorem toDevice_of_completes (next : s.CompletesNext) :
    ∃ p, s.pend = some p ∧ t.toDevice = s.toDevice.complete s.cfg.tables p := by
  rw [step_of_completesNext next] at answers
  rcases completionTurn_cases s.afterEvent with ⟨idle, -⟩ | ⟨p, -, pend, turn⟩ | ⟨-, -, turn⟩
  · rw [next.1] at idle; cases idle
  · rw [turn] at answers; cases answers
    exact ⟨p, pend, rfl⟩
  · rw [turn] at answers; cases answers

/-- A completion step, where the command recorded is known. -/
theorem toDevice_of_completes_pend {p : Pending} (next : s.CompletesNext) (pend : s.pend = some p) :
    t.toDevice = s.toDevice.complete s.cfg.tables p := by
  obtain ⟨q, recorded, is⟩ := toDevice_of_completes answers next
  cases pend.symm.trans recorded
  exact is

end

/-- Settles O8: an idle cycle and an idle completion turn do nothing, and a step of a finished run neither. -/
theorem idleTurnsChangeNothing : Obligations.IdleTurnsChangeNothing := by
  intro s idle
  constructor
  · intro script
    simp [step, nextTurn, script, idle]
  · rintro rest (script | script)
    · simp [step, nextTurn, script, turnOf, completionTurn, idle]
    · simp [step, nextTurn, script, turnOf, datapathTurn, State.onDevice, cycle_of_idle _ idle]

/-- Settles O26: while busy the check of both writes answers BUSY, whatever the data. -/
theorem busyWindowTurnsWritesAway : Obligations.BusyWindowTurnsWritesAway := by
  rintro s x busy (next | next)
  · obtain ⟨op, -, runs⟩ := exec_command_write x
    rw [step_of_writes next, runs, writeCmd_of_busy (s := s.afterEvent) busy]
  · rw [step_of_writes next]
    simp only [decode_register_write]
    exact congrArg _ (writeRkdata_of_busy (s := s.afterEvent) busy x)

/-! ## What a step leaves alone

By the cases of `effect_of_step`: an event that writes the register is one of those the statement names, and every
other leaves it by the lemmas of Laws/State.lean. -/

section
variable {s t : State} (answers : step s = .next t)
include answers

/-- Only a reset, an acceptance and a completion write `BUSY`, `DONE` and `PEND` (spec/10_state.md R28, R29, R37). -/
theorem command_status_kept (noReset : ¬s.ResetsNext) (noAccept : ∀ op, ¬s.AcceptsNext op)
    (noCompletion : ¬s.CompletesNext) : t.busy = s.busy ∧ t.done = s.done ∧ t.pend = s.pend := by
  cases effect_of_step answers with
  | reset next => exact absurd next noReset
  | accept op next => exact absurd next (noAccept op)
  | complete p next => exact absurd next noCompletion
  | _ => simp [‹t.toDevice = _›]

/-- Only a reset, a KSCHED accepted or completed, and a stored round key write `RK_VALID` (R36). -/
theorem rkValid_kept (noReset : ¬s.ResetsNext) (noKsched : ¬s.AcceptsNext .ksched) (noStore : ∀ v, ¬s.StoresNext v)
    (block : ∀ p, s.CompletesNext → s.pend = some p → p.op ≠ .ksched) : t.rkValid = s.rkValid := by
  cases effect_of_step answers with
  | reset next => exact absurd next noReset
  | accept op next is =>
    have other : op ≠ .ksched := by rintro rfl; exact noKsched next
    simp [is, accept_common, other]
  | store v next => exact absurd next (noStore v)
  | complete p next pend is => simp [is, complete_block _ (block p next pend)]
  | _ => simp [‹t.toDevice = _›]

/-- Only a reset and the completion of a block command write `DOUT` (R26). -/
theorem dout_kept (noReset : ¬s.ResetsNext) (ksched : ∀ p, s.CompletesNext → s.pend = some p → p.op = .ksched) :
    t.dout = s.dout := by
  cases effect_of_step answers with
  | reset next => exact absurd next noReset
  | accept op next is => simp [is, accept_common]
  | complete p next pend is => simp [is, complete_ksched _ (ksched p next pend)]
  | _ => simp [‹t.toDevice = _›]

/-- Only a reset, a KSCHED completed and a stored round key write a valid entry of `RK` (R35, R131). -/
theorem rkEntry_kept (fits : s.ValidBitsFitCommand) (noReset : ¬s.ResetsNext) (noStore : ∀ v, ¬s.StoresNext v)
    (block : ∀ p, s.CompletesNext → s.pend = some p → p.op ≠ .ksched) {j : BitVec 4}
    (valid : rkValidBit s.rkValid j = true) : rkEntry t.rk j = rkEntry s.rk j := by
  cases effect_of_step answers with
  | reset next => exact absurd next noReset
  | accept op next is => simp [is, accept_common]
  | store v next => exact absurd next (noStore v)
  | round next is => rw [is, cycle_rkEntry_of_valid _ fits valid]
  | complete p next pend is => simp [is, complete_block _ (block p next pend)]
  | _ => simp [‹t.toDevice = _›]

/-- Only a reset and a write to `KEY` write `KEY` (R24). -/
theorem key_kept (noReset : ¬s.ResetsNext) (noWrite : ∀ x, ¬s.WritesNext offsetKey x) : t.key = s.key := by
  cases effect_of_step answers with
  | reset next => exact absurd next noReset
  | key x next => exact absurd next (noWrite x)
  | _ => simp [‹t.toDevice = _›, accept_common, complete_common]

/-- Only a reset and a write to `DIN` write `DIN` (R25). -/
theorem din_kept (noReset : ¬s.ResetsNext) (noWrite : ∀ x, ¬s.WritesNext offsetDin x) : t.din = s.din := by
  cases effect_of_step answers with
  | reset next => exact absurd next noReset
  | din x next => exact absurd next (noWrite x)
  | _ => simp [‹t.toDevice = _›, accept_common, complete_common]

/-- Only a reset and a write to `RKIDX` write `RKIDX` (R33). -/
theorem rkidx_kept (noReset : ¬s.ResetsNext) (noWrite : ∀ x, ¬s.WritesNext offsetRkidx x) : t.rkidx = s.rkidx := by
  cases effect_of_step answers with
  | reset next => exact absurd next noReset
  | rkidx x next => exact absurd next (noWrite x)
  | _ => simp [‹t.toDevice = _›, accept_common, complete_common]

/-- Only a reset and the checked writes write `ERR` (R31). -/
theorem err_kept (noReset : ¬s.ResetsNext) (noCommand : ∀ x, ¬s.WritesNext offsetCmd x)
    (noRoundKey : ∀ x, ¬s.WritesNext offsetRkdata x) : t.err = s.err := by
  cases effect_of_step answers with
  | reset next => exact absurd next noReset
  | accept op next => exact absurd next.2.1 (noCommand _)
  | rejectCommand x code next => exact absurd next (noCommand x)
  | store v next => exact absurd next.2 (noRoundKey _)
  | rejectRoundKey x code next => exact absurd next (noRoundKey x)
  | _ => simp [‹t.toDevice = _›, complete_common]

end

/-! ## The statements on what writes each register -/

/-- Settles O27, clause by clause; the last is the BUSY window of O26. -/
theorem commandStatusFollowsTheCommand : Obligations.CommandStatusFollowsTheCommand := by
  intro s t answers
  refine ⟨fun next => ?_, fun op next => ?_, fun next => ?_, command_status_kept answers, fun x busy next => ?_⟩
  · rw [toDevice_of_resets answers next]
    exact ⟨rfl, rfl, rfl⟩
  · simp [toDevice_of_accepts answers next, accept_common]
  · obtain ⟨p, -, is⟩ := toDevice_of_completes answers next
    simp [is, complete_common]
  · rw [busyWindowTurnsWritesAway s x busy next] at answers
    cases answers
    rfl

/-- Settles O28, clause by clause. -/
theorem validBitsHaveTheseWriters : Obligations.ValidBitsHaveTheseWriters := by
  intro s t answers
  refine ⟨fun next => ?_, fun next => ?_, fun p next pend ksched => ?_, fun v next j => ?_, rkValid_kept answers⟩
  · rw [toDevice_of_resets answers next]; rfl
  · simp [toDevice_of_accepts answers next, accept_common]
  · simp [toDevice_of_completes_pend answers next pend, complete_ksched _ ksched]
  · rw [toDevice_of_stores answers next, Device.storeRoundKey_rkValid, Bool.or_comm]
    exact rkValidBit_rkValidWith s.rkValid j s.rkidx

/-- Settles O29, clause by clause. -/
theorem doutHasTheseWriters : Obligations.DoutHasTheseWriters := by
  intro s t answers
  refine ⟨fun next => ?_, fun p next pend op => ?_, fun p next pend op => ?_, dout_kept answers⟩
  · rw [toDevice_of_resets answers next]; rfl
  · simp [toDevice_of_completes_pend answers next pend, complete_block, op, keysInOrder]
  · simp [toDevice_of_completes_pend answers next pend, complete_block, op, keysInOrder]

/-- Settles O30, clause by clause; of the invariant it needs that the valid bits fit the command in flight. -/
theorem roundKeysHaveTheseWriters : Obligations.RoundKeysHaveTheseWriters := by
  rintro s t ⟨-, -, -, fits⟩ answers
  refine ⟨fun p next pend ksched j => ?_, fun v next j => ?_,
    fun noReset noStore block j => rkEntry_kept answers fits noReset noStore block⟩
  · simp [toDevice_of_completes_pend answers next pend, complete_ksched _ ksched]
  · simp [toDevice_of_stores answers next]

/-- Settles O31, clause by clause. -/
theorem hostRegistersChangeOnlyByTheirWrite : Obligations.HostRegistersChangeOnlyByTheirWrite := by
  intro s t answers
  refine ⟨fun next => ?_, fun x next => ?_, fun x next => ?_, fun x next => ?_,
    key_kept answers, din_kept answers, rkidx_kept answers⟩
  · rw [toDevice_of_resets answers next]
    exact ⟨rfl, rfl, rfl⟩
  all_goals
    rw [step_of_writes next] at answers
    simp only [decode_register_write] at answers
    cases answers
    rfl

/-- Settles O32: `ERR` holds the outcome of the check, which passes exactly for what is carried out. -/
theorem errReportsTheLatestCheckedWrite : Obligations.ErrReportsTheLatestCheckedWrite := by
  intro s t answers
  refine ⟨fun next => ?_, fun x next => ?_, fun x next => ?_, err_kept answers⟩
  · rw [toDevice_of_resets answers next]; rfl
  · obtain ⟨op, carries, is⟩ := toDevice_of_command_write answers next
    simp only [is, writeCmd_err, acceptsNext_iff next, ← carries]
    constructor
    · intro passes
      cases op with
      | none => simp [commandCheck_eq_none_iff] at passes
      | some c => exact ⟨c, rfl, rfl, passes⟩
    · rintro ⟨c, rfl, -, passes⟩
      exact passes
  · rw [toDevice_of_round_key_write answers next, writeRkdata_err]
    simp only [storesNext_iff next]
    constructor
    · intro passes
      obtain ⟨-, fits⟩ := (rkdataCheck_eq_none_iff x s.toDevice).mp passes
      have carries := (roundKeyExcess_eq_zero_iff x).mp fits
      exact ⟨roundKeyField x, carries, carries, passes⟩
    · rintro ⟨v, -, -, passes⟩
      exact passes

/-! ## The invariant of a run -/

/-- With no command in flight the invariant asks only that `ROUND` is in range. -/
theorem inv_of_idle {m : Device} (idle : m.busy = false) (none_ : m.pend = none) (bound : m.round.toNat ≤ 16) :
    m.Inv := by
  simp [Device.Inv, Device.ValidBitsFitCommand, idle, none_, bound]

/-- A command accepted under its own condition on `RK_VALID` meets the invariant (spec/10_state.md R30, R36). -/
theorem inv_of_accept (t : Tables) {op : Command} {m : Device} (ready : op ≠ .ksched → m.rkValid = 0xFFFF#16) :
    (m.accept t op).Inv := by
  cases op <;> simp_all [Device.Inv, Device.ValidBitsFitCommand, accept_common]

/-- A cycle keeps the invariant: of what it speaks of a cycle moves `ROUND` only. -/
theorem inv_of_cycle (t : Tables) {m : Device} (inv : m.Inv) : (m.cycle t).Inv := by
  obtain ⟨busy, apart, bound, fits⟩ := inv
  exact ⟨by simpa using busy, by simpa using apart, cycle_round_le t bound,
    by simpa [Device.ValidBitsFitCommand] using fits⟩

/-- Settles O36: by what the step did to DESCORE. A reset, a stored round key and a completion leave no command in
flight; a turned-away write and the host's registers touch nothing the invariant speaks of. -/
theorem everyStepKeepsTheInvariant : Obligations.EveryStepKeepsTheInvariant := by
  intro s t inv answers
  cases effect_of_step answers with
  | reset _ is => rw [is]; exact inv_of_idle rfl rfl (by simp [Device.reset])
  | accept op next is =>
    obtain ⟨-, -, ready⟩ := next
    rw [is]
    exact inv_of_accept _ fun block => by simpa [block] using ready
  | store v next is =>
    obtain ⟨idle, -⟩ := next
    obtain ⟨busy, -, bound, -⟩ := inv
    have none_ : s.pend = none := by simpa [idle] using busy
    rw [is]
    exact inv_of_idle idle none_ bound
  | round _ is => rw [is]; exact inv_of_cycle _ inv
  | complete p _ _ is =>
    obtain ⟨-, -, -, -, idle, -, none_, round⟩ := complete_common s.cfg.tables p s.toDevice
    rw [is]
    exact inv_of_idle idle none_ (by simp [round])
  | _ => rw [‹t.toDevice = _›]; exact inv

/-! ## KEY cannot be read back -/

/-- The machine without what depends on `KEY`: `KEY` itself, the record of the command in flight with its sample, and
the halves KS_LOAD fills. -/
def State.hidingKey (s : State) : State := { s with key := 0#64, pend := none, c := 0#28, d := 0#28 }

/-- While parity is not checked, a `CMD` write does the same whatever `KEY` holds, but for what depends on it. -/
theorem writeCmd_hidingKey {s : State} (unchecked : s.cfg.checkKeyParity = false) (op : Option Command)
    (other : Word64) : (State.writeCmd { s with key := other } op).hidingKey = (s.writeCmd op).hidingKey := by
  have check : Device.commandCheck false op { s.toDevice with key := other } = s.toDevice.commandCheck false op := by
    rcases op with _ | _ | _ | _ <;> rfl
  unfold State.writeCmd State.onDevice
  simp only [unchecked, check]
  rcases s.toDevice.commandCheck false op <;> rcases op with _ | _ | _ | _ <;> rfl

/-- So does an `RKDATA` write. -/
theorem writeRkdata_hidingKey (s : State) (other wdata : Word64) :
    (State.onDevice { s with key := other } fun m =>
        m.writeRkdata wdata (m.rkdataCheck wdata)).answerWrite.hidingKey =
      (s.onDevice fun m => m.writeRkdata wdata (m.rkdataCheck wdata)).answerWrite.hidingKey := by
  have check : Device.rkdataCheck wdata { s.toDevice with key := other } = s.toDevice.rkdataCheck wdata := rfl
  unfold State.onDevice
  simp only [check]
  cases s.toDevice.rkdataCheck wdata <;> rfl

/-- So does every operation: beside acceptance none reads `KEY`. -/
theorem exec_hidingKey (i : Instr) {s : State} (unchecked : s.cfg.checkKeyParity = false) (other : Word64) :
    ∃ t t', exec i s = .next t ∧ exec i { s with key := other } = .next t' ∧ t'.hidingKey = t.hidingKey := by
  cases i with
  | ksched => exact ⟨_, _, rfl, rfl, writeCmd_hidingKey unchecked (some .ksched) other⟩
  | encrypt => exact ⟨_, _, rfl, rfl, writeCmd_hidingKey unchecked (some .encrypt) other⟩
  | decrypt => exact ⟨_, _, rfl, rfl, writeCmd_hidingKey unchecked (some .decrypt) other⟩
  | cmdIllegal _ => exact ⟨_, _, rfl, rfl, writeCmd_hidingKey unchecked none other⟩
  | wrRkdata x => exact ⟨_, _, rfl, rfl, writeRkdata_hidingKey s other x⟩
  | _ => exact ⟨_, _, rfl, rfl, rfl⟩

/-- Settles O15: each field compared, and each word a host reads, is one of the machine without what depends on
`KEY`. -/
theorem noAccessReadsTheKeyBack : Obligations.NoAccessReadsTheKeyBack := by
  intro i s other unchecked
  obtain ⟨t, t', runs, runs', same⟩ := exec_hidingKey i unchecked other
  exact ⟨t, t', runs, runs', congrArg (·.reply) same, congrArg (·.busErrors) same, congrArg (·.din) same,
    congrArg (·.dout) same, congrArg (·.rkidx) same, congrArg (·.rk) same, congrArg (·.rkValid) same,
    congrArg (·.busy) same, congrArg (·.done) same, congrArg (·.err) same, congrArg (·.l) same,
    congrArg (·.r) same, congrArg (·.round) same, congrArg (·.script) same, congrArg (·.cfg) same,
    congrArg (·.statusWord) same, congrArg (·.rkdataWord) same⟩

/-! ## Nothing shown depends on hidden state -/

/-- A device looks like itself. -/
theorem Device.LooksLike.refl (m : Device) : m.LooksLike m :=
  ⟨rfl, rfl, rfl, rfl, rfl, rfl, rfl, rfl, rfl, fun _ _ => rfl⟩

/-- Looking alike carries over a third device. -/
theorem Device.LooksLike.trans {a b c : Device} (first : a.LooksLike b) (second : b.LooksLike c) : a.LooksLike c := by
  obtain ⟨a1, a2, a3, a4, a5, a6, a7, a8, a9, aRk⟩ := first
  obtain ⟨b1, b2, b3, b4, b5, b6, b7, b8, b9, bRk⟩ := second
  exact ⟨a1.trans b1, a2.trans b2, a3.trans b3, a4.trans b4, a5.trans b5, a6.trans b6, a7.trans b7, a8.trans b8,
    a9.trans b9, fun j valid => (aRk j valid).trans (bRk j (a5 ▸ valid))⟩

/-- Looking alike goes both ways. -/
theorem Device.LooksLike.symm {a b : Device} (like : a.LooksLike b) : b.LooksLike a := by
  obtain ⟨e1, e2, e3, e4, e5, e6, e7, e8, e9, rk⟩ := like
  exact ⟨e1.symm, e2.symm, e3.symm, e4.symm, e5.symm, e6.symm, e7.symm, e8.symm, e9.symm,
    fun j valid => (rk j (e5 ▸ valid)).symm⟩

section
variable {a b : Device} (like : a.LooksLike b)
include like

/-- The `STATUS` word shows nothing hidden. -/
theorem Device.LooksLike.statusWord : a.statusWord = b.statusWord := by
  obtain ⟨-, -, -, -, valid, busy, done, err, -, -⟩ := like
  simp [Device.statusWord, Device.rkReady, valid, busy, done, err]

/-- Nor does `RKDATA`: an entry that is not valid reads as 0 (spec/10_state.md R34). -/
theorem Device.LooksLike.rkdataWord : a.rkdataWord = b.rkdataWord := by
  obtain ⟨-, -, -, rkidx, valid, -, -, -, -, rk⟩ := like
  simp only [Device.rkdataWord, ← rkidx, ← valid]
  split
  · rw [rk _ ‹_›]
  · rfl

/-- The check of a `CMD` write reads nothing hidden. -/
theorem Device.LooksLike.commandCheck (parityChecked : Bool) (op : Option Command) :
    a.commandCheck parityChecked op = b.commandCheck parityChecked op := by
  obtain ⟨key, -, -, -, valid, busy, -, -, -, -⟩ := like
  simp [Device.commandCheck, Device.rkReady, key, valid, busy]

/-- Nor does the check of an `RKDATA` write. -/
theorem Device.LooksLike.rkdataCheck (wdata : Word64) : a.rkdataCheck wdata = b.rkdataCheck wdata := by
  obtain ⟨-, -, -, -, -, busy, -, -, -, -⟩ := like
  simp [Device.rkdataCheck, busy]

/-- A write to `KEY` keeps the likeness; so do those to `DIN` and `RKIDX`, and a code raised. -/
theorem Device.LooksLike.setKey (v : Word64) : (a.setKey v).LooksLike (b.setKey v) := by
  obtain ⟨-, rest⟩ := like
  exact ⟨rfl, rest⟩

theorem Device.LooksLike.setDin (v : Word64) : (a.setDin v).LooksLike (b.setDin v) := by
  obtain ⟨key, -, rest⟩ := like
  exact ⟨key, rfl, rest⟩

theorem Device.LooksLike.setRkidx (v : BitVec 4) : (a.setRkidx v).LooksLike (b.setRkidx v) := by
  obtain ⟨key, din, dout, -, rest⟩ := like
  exact ⟨key, din, dout, rfl, rest⟩

theorem Device.LooksLike.raiseError (code : ErrCode) : (a.raiseError code).LooksLike (b.raiseError code) := by
  obtain ⟨key, din, dout, rkidx, valid, busy, done, -, rest⟩ := like
  exact ⟨key, din, dout, rkidx, valid, busy, done, rfl, rest⟩

/-- The stored entry is the same in both, and becomes valid in both. -/
theorem Device.LooksLike.storeRoundKey (v : RoundKey) : (a.storeRoundKey v).LooksLike (b.storeRoundKey v) := by
  obtain ⟨key, din, dout, rkidx, valid, busy, done, -, pend, rk⟩ := like
  refine ⟨key, din, dout, rkidx, by simp [valid, rkidx], busy, done, rfl, pend, fun j validAfter => ?_⟩
  simp only [Device.storeRoundKey_rkValid, Device.storeRoundKey_rk, rkValidBit_rkValidWith, rkEntry_rkWithEntry,
    Bool.or_eq_true, decide_eq_true_eq, ← rkidx] at validAfter ⊢
  split
  · rfl
  · exact rk j (validAfter.resolve_right ‹_›)

/-- Acceptance samples what both share, and makes no entry valid. -/
theorem Device.LooksLike.accept (t : Tables) (op : Command) : (a.accept t op).LooksLike (b.accept t op) := by
  obtain ⟨key, din, dout, rkidx, valid, -, -, -, -, rk⟩ := like
  refine ⟨?_, ?_, ?_, ?_, ?_, ?_, ?_, ?_, ?_, fun j validAfter => ?_⟩
  case refine_10 =>
    simp only [accept_common] at validAfter ⊢
    split at validAfter
    · simp at validAfter
    · exact rk j validAfter
  all_goals simp [accept_common, key, din, dout, rkidx, valid]

/-- With every entry valid the whole file is the same. -/
theorem Device.LooksLike.rk_of_full (full : a.rkValid = 0xFFFF#16) : a.rk = b.rk := by
  obtain ⟨-, -, -, -, -, -, -, -, -, rk⟩ := like
  exact roundKeyFile_ext fun j => rk j (by simp [full])

/-- Completion of a KSCHED commits what its sample says; that of a block command runs with every entry valid. -/
theorem Device.LooksLike.complete (t : Tables) {p : Pending} (full : p.op ≠ .ksched → a.rkValid = 0xFFFF#16) :
    (a.complete t p).LooksLike (b.complete t p) := by
  have file := fun block => like.rk_of_full (full block)
  obtain ⟨key, din, dout, rkidx, valid, -, -, err, -, -⟩ := like
  by_cases ksched : p.op = .ksched
  · refine ⟨?_, ?_, ?_, ?_, ?_, ?_, ?_, ?_, ?_, fun j _ => ?_⟩
    all_goals simp [complete_common, complete_ksched _ ksched, key, din, dout, rkidx, err]
  · refine ⟨?_, ?_, ?_, ?_, ?_, ?_, ?_, ?_, ?_, fun j _ => ?_⟩
    all_goals simp [complete_common, complete_block _ ksched, key, din, rkidx, err, valid, file ksched]

/-- The same command is in flight in both, so the valid bits fit it in both. -/
theorem Device.LooksLike.fits (fits : a.ValidBitsFitCommand) : b.ValidBitsFitCommand := by
  obtain ⟨-, -, -, -, valid, -, -, -, pend, -⟩ := like
  rw [Device.ValidBitsFitCommand, ← pend, ← valid]
  exact fits

end

/-- A cycle of the datapath shows nothing: DESCORE looks after it as before. -/
theorem cycle_looksLike (t : Tables) {m : Device} (fits : m.ValidBitsFitCommand) : (m.cycle t).LooksLike m := by
  obtain ⟨key, din, dout, rkidx, valid, busy, done, err, pend⟩ := cycle_common t m
  exact ⟨key, din, dout, rkidx, valid, busy, done, err, pend, fun j validAfter =>
    cycle_rkEntry_of_valid t fits (valid ▸ validAfter)⟩

/-! The same of two machines, and of their steps. -/

section
variable {s t : State} (like : s.LooksLike t)
include like

/-- Two machines stay alike when their devices change to devices that are alike, and by the same answer. -/
theorem State.LooksLike.onDevice {f g : Device → Device} (devices : (f s.toDevice).LooksLike (g t.toDevice)) :
    (s.onDevice f).LooksLike (t.onDevice g) := by
  obtain ⟨-, rest⟩ := like
  exact ⟨devices, rest⟩

theorem State.LooksLike.answerWrite : s.answerWrite.LooksLike t.answerWrite := by
  obtain ⟨devices, cfg, script, -, busErrors⟩ := like
  exact ⟨devices, cfg, script, rfl, busErrors⟩

theorem State.LooksLike.answerRead {v w : Word64} (same : v = w) : (s.answerRead v).LooksLike (t.answerRead w) := by
  obtain ⟨devices, cfg, script, -, busErrors⟩ := like
  exact ⟨devices, cfg, script, by rw [same]; rfl, busErrors⟩

theorem State.LooksLike.raiseBusError (dir : Dir) (addr : Offset) :
    (s.raiseBusError dir addr).LooksLike (t.raiseBusError dir addr) := by
  obtain ⟨devices, cfg, script, -, busErrors⟩ := like
  exact ⟨devices, cfg, script, rfl, by simp [busErrors]⟩

/-- A checked `CMD` write does the same to both. -/
theorem State.LooksLike.writeCmd (op : Option Command) : (s.writeCmd op).LooksLike (t.writeCmd op) := by
  have ⟨devices, cfg, _⟩ := like
  refine (like.onDevice ?_).answerWrite
  simp only [← cfg, ← devices.commandCheck]
  cases s.toDevice.commandCheck s.cfg.checkKeyParity op with
  | none =>
    cases op with
    | none => exact devices.raiseError .none
    | some c => exact devices.accept _ c
  | _ => cases op <;> exact devices.raiseError _

/-- A checked `RKDATA` write does the same to both. -/
theorem State.LooksLike.writeRkdata (wdata : Word64) :
    (s.onDevice fun m => m.writeRkdata wdata (m.rkdataCheck wdata)).answerWrite.LooksLike
      (t.onDevice fun m => m.writeRkdata wdata (m.rkdataCheck wdata)).answerWrite := by
  have ⟨devices, _⟩ := like
  refine (like.onDevice ?_).answerWrite
  rw [← devices.rkdataCheck]
  cases s.toDevice.rkdataCheck wdata with
  | none => exact devices.storeRoundKey _
  | _ => exact devices.raiseError _

end

/-- Two answers alike: a next state is matched by one that looks like it. -/
def AnswersAlike (o p : Host.Outcome State Fault Refusal) : Prop :=
  ∀ s', o = .next s' → ∃ t', p = .next t' ∧ s'.LooksLike t'

/-- Two next states that look alike are two answers alike. -/
theorem answersAlike_next {s t : State} (like : s.LooksLike t) : AnswersAlike (.next s) (.next t) := by
  rintro _ ⟨⟩
  exact ⟨t, rfl, like⟩

section
variable {s t : State} (like : s.LooksLike t)
include like

/-- Every operation answers alike from machines that look alike, invariant or not. -/
theorem exec_answersAlike (i : Instr) : AnswersAlike (exec i s) (exec i t) := by
  have ⟨⟨_, din, dout, rkidx, _⟩, _⟩ := like
  cases i with
  | ksched => exact answersAlike_next (like.writeCmd (some .ksched))
  | encrypt => exact answersAlike_next (like.writeCmd (some .encrypt))
  | decrypt => exact answersAlike_next (like.writeCmd (some .decrypt))
  | cmdIllegal _ => exact answersAlike_next (like.writeCmd none)
  | wrKey x => exact answersAlike_next (like.onDevice (like.1.setKey x)).answerWrite
  | wrDin x => exact answersAlike_next (like.onDevice (like.1.setDin x)).answerWrite
  | wrRkidx x => exact answersAlike_next (like.onDevice (like.1.setRkidx (rkIndexField x))).answerWrite
  | wrRkdata x => exact answersAlike_next (like.writeRkdata x)
  | buserr dir addr _ => exact answersAlike_next (like.raiseBusError dir addr)
  | rdStatus => exact answersAlike_next (like.answerRead like.1.statusWord)
  | rdDin => exact answersAlike_next (like.answerRead din)
  | rdDout => exact answersAlike_next (like.answerRead dout)
  | rdRkidx => exact answersAlike_next (like.answerRead (congrArg _ rkidx))
  | rdRkdata => exact answersAlike_next (like.answerRead like.1.rkdataWord)
  | rdCmd => exact answersAlike_next (like.answerRead rfl)
  | rdKey => exact answersAlike_next (like.answerRead rfl)
  | rdRsvd38 => exact answersAlike_next (like.answerRead rfl)
  | wrStatus _ => exact answersAlike_next like.answerWrite
  | wrDout _ => exact answersAlike_next like.answerWrite
  | wrRsvd38 _ => exact answersAlike_next like.answerWrite

/-- Cycles of the two datapaths, wherever each of them stands: neither shows anything. -/
theorem datapathTurn_answersAlike (fits : s.ValidBitsFitCommand) :
    AnswersAlike (datapathTurn s) (datapathTurn t) := by
  have fits' := like.1.fits fits
  exact answersAlike_next (like.onDevice
    ((cycle_looksLike _ fits).trans (like.1.trans (cycle_looksLike _ fits').symm)))

/-- Completion turns of both: the same command completes, or none. -/
theorem completionTurn_answersAlike (fits : s.ValidBitsFitCommand) :
    AnswersAlike (completionTurn s) (completionTurn t) := by
  have ⟨devices, cfg, _⟩ := like
  have ⟨_, _, _, _, _, busy, _, _, pend, _⟩ := devices
  rcases completionTurn_cases s with ⟨idle, turn⟩ | ⟨p, inFlight, recorded, turn⟩ | ⟨-, -, turn⟩ <;> rw [turn]
  · have same : completionTurn t = .next t := by simp [completionTurn, ← busy, idle]
    rw [same]
    exact answersAlike_next like
  · have same : completionTurn t = .next (t.onDevice fun m => m.complete t.cfg.tables p) := by
      simp [completionTurn, ← busy, ← pend, inFlight, recorded]
    rw [same, ← cfg]
    exact answersAlike_next (like.onDevice (devices.complete _ fun block => by
      simpa [block] using fits p recorded))
  · rintro _ ⟨⟩

/-- Resets of both. -/
theorem resetTurn_answersAlike : AnswersAlike (resetTurn s) (resetTurn t) :=
  answersAlike_next (like.onDevice (Device.LooksLike.refl _))

/-- The same turn comes next in both, and the machines look alike with its event taken. -/
theorem nextTurn_looksLike :
    (nextTurn s).1 = (nextTurn t).1 ∧ (nextTurn s).2.LooksLike (nextTurn t).2 := by
  have ⟨devices, cfg, script, reply, busErrors⟩ := like
  have ⟨_, _, _, _, _, busy, _⟩ := devices
  unfold nextTurn
  rw [← script]
  cases s.script with
  | nil => exact ⟨by simp only [busy], like⟩
  | cons e rest => exact ⟨rfl, devices, cfg, rfl, reply, busErrors⟩

end

/-- Whose turn it is, is settled without a change of DESCORE. -/
theorem nextTurn_toDevice (s : State) : (nextTurn s).2.toDevice = s.toDevice := by
  unfold nextTurn
  split <;> rfl

/-- Settles O40: the same turn is taken from both machines, and each turn answers alike. -/
theorem nothingObservedDependsOnHiddenState : Obligations.NothingObservedDependsOnHiddenState := by
  rintro s t s' ⟨-, -, -, fits⟩ like answers
  obtain ⟨sameTurn, like⟩ := nextTurn_looksLike like
  rw [← nextTurn_toDevice s] at fits
  revert s' answers
  change AnswersAlike (step s) (step t)
  unfold step
  generalize nextTurn s = u at *
  generalize nextTurn t = v at *
  obtain ⟨turn, s⟩ := u
  obtain ⟨_, t⟩ := v
  obtain rfl := sameTurn
  cases turn with
  | access w => exact exec_answersAlike like (decode w)
  | round => exact datapathTurn_answersAlike like fits
  | completion => exact completionTurn_answersAlike like fits
  | reset => exact resetTurn_answersAlike like
  | idle => exact answersAlike_next like

end Sys2Proof.Machine

/-! Proofs of the statements of spec/20_memory.md: a read changes nothing (O14), and the window's place in the host's
address space (O53). -/

namespace Sys2Proof.Machine

/-! ## Reads -/

/-- A read changes neither DESCORE nor its parameters, and what it answers depends on DESCORE alone (R57). -/
theorem exec_read {i : Instr} (reads : i.dir = .read) :
    ∃ answer : Device → Reply, ∀ s : State, ∃ t, exec i s = .next t ∧ t.toDevice = s.toDevice ∧ t.cfg = s.cfg ∧
      t.reply = some (answer s.toDevice) := by
  cases i with
  | rdCmd => exact ⟨fun _ => ⟨some 0#64, false⟩, fun s => ⟨_, rfl, rfl, rfl, rfl⟩⟩
  | rdStatus => exact ⟨fun m => ⟨some m.statusWord, false⟩, fun s => ⟨_, rfl, rfl, rfl, rfl⟩⟩
  | rdKey => exact ⟨fun _ => ⟨some 0#64, false⟩, fun s => ⟨_, rfl, rfl, rfl, rfl⟩⟩
  | rdDin => exact ⟨fun m => ⟨some m.din, false⟩, fun s => ⟨_, rfl, rfl, rfl, rfl⟩⟩
  | rdDout => exact ⟨fun m => ⟨some m.dout, false⟩, fun s => ⟨_, rfl, rfl, rfl, rfl⟩⟩
  | rdRkidx => exact ⟨fun m => ⟨some (m.rkidx.setWidth 64), false⟩, fun s => ⟨_, rfl, rfl, rfl, rfl⟩⟩
  | rdRkdata => exact ⟨fun m => ⟨some m.rkdataWord, false⟩, fun s => ⟨_, rfl, rfl, rfl, rfl⟩⟩
  | rdRsvd38 => exact ⟨fun _ => ⟨some 0#64, false⟩, fun s => ⟨_, rfl, rfl, rfl, rfl⟩⟩
  | buserr dir _ _ => exact ⟨fun _ => busErrorReply dir, fun s => ⟨_, rfl, rfl, rfl, rfl⟩⟩
  | _ => cases reads

/-- Settles O14: the second read meets the same DESCORE as the first, and the answer depends on nothing else. -/
theorem readsHaveNoSideEffect : Obligations.ReadsHaveNoSideEffect := by
  intro i s reads
  obtain ⟨answer, read⟩ := exec_read reads
  obtain ⟨t, runs, device, cfg, reply⟩ := read s
  obtain ⟨t', runs', device', -, reply'⟩ := read t
  exact ⟨t, t', runs, device, cfg, runs', device'.trans device, by rw [reply', device, reply]⟩

/-! ## The register window -/

/-- Inside the window an address is the base plus its offset: the offset's six bits hold any number below 64 (R51). -/
theorem windowOffset_eq_some_iff (address : Nat) (offset : Offset) :
    windowOffset address = some offset ↔ address = Config.descoreBase + offset.toNat := by
  have inside : offset.toNat < 64 := offset.isLt
  rw [windowOffset, Option.ite_none_right_eq_some, Option.some.injEq, ← BitVec.toNat_inj, BitVec.toNat_ofNat]
  omega

/-- Outside the window there is no offset. -/
theorem windowOffset_eq_none_iff (address : Nat) :
    windowOffset address = none ↔ address < Config.descoreBase ∨ Config.descoreBase + 64 ≤ address := by
  simp only [windowOffset, ite_eq_right_iff, reduceCtorEq, imp_false]
  omega

/-- Settles O53: the addresses inside the window, and those outside. -/
theorem windowStartsAtTheBase : Obligations.WindowStartsAtTheBase :=
  ⟨windowOffset_eq_some_iff, windowOffset_eq_none_iff⟩

end Sys2Proof.Machine

/-! Proofs of the statements of spec/30_encoding.md: the opcode map and its two round trips (O1 to O5), the illegal
command words (O6), and the checked write of a round key (O13). -/

namespace Sys2Proof.Machine

/-! ## The opcode map, row by row -/

/-- R80 rows 5 to 19: an aligned access, but for a write to `CMD`, is decoded by its direction and offset. -/
@[simp] theorem decode_aligned (x : Word64) :
    decode (busWord .read 0x00#6 x) = .rdCmd ∧
    decode (busWord .read 0x08#6 x) = .rdStatus ∧ decode (busWord .write 0x08#6 x) = .wrStatus x ∧
    decode (busWord .read 0x10#6 x) = .rdKey ∧ decode (busWord .write 0x10#6 x) = .wrKey x ∧
    decode (busWord .read 0x18#6 x) = .rdDin ∧ decode (busWord .write 0x18#6 x) = .wrDin x ∧
    decode (busWord .read 0x20#6 x) = .rdDout ∧ decode (busWord .write 0x20#6 x) = .wrDout x ∧
    decode (busWord .read 0x28#6 x) = .rdRkidx ∧ decode (busWord .write 0x28#6 x) = .wrRkidx x ∧
    decode (busWord .read 0x30#6 x) = .rdRkdata ∧ decode (busWord .write 0x30#6 x) = .wrRkdata x ∧
    decode (busWord .read 0x38#6 x) = .rdRsvd38 ∧ decode (busWord .write 0x38#6 x) = .wrRsvd38 x := by
  simp [decode_busWord]

/-- R80 row 20: a misaligned offset is no register's, so no row before the last matches. -/
theorem decode_misaligned (d : Dir) {a : Offset} (x : Word64) (misaligned : a.extractLsb' 0 3 ≠ 0#3) :
    decode (busWord d a x) = .buserr d a x := by
  rw [ne_eq, aligned_iff] at misaligned
  push Not at misaligned
  simp [decode_busWord, misaligned]

/-- R80 row 4: a `CMD` write of no command's word. -/
theorem decode_illegal {x : Word64} (h1 : x ≠ 1#64) (h2 : x ≠ 2#64) (h3 : x ≠ 3#64) :
    decode (busWord .write 0x00#6 x) = .cmdIllegal x := by
  rw [decode_command, if_neg h1, if_neg h2, if_neg h3]

/-- A `CMD_ILLEGAL` is well formed exactly where its word is none of the commands (R73, R74). -/
theorem wellFormed_cmdIllegal_iff (x : Word64) :
    (Instr.cmdIllegal x).WellFormed ↔ x ≠ 1#64 ∧ x ≠ 2#64 ∧ x ≠ 3#64 := by
  simp [Instr.WellFormed, Instr.wellFormed, isCommandWord, and_assoc]

/-- A `BUSERR` is well formed exactly where its offset is misaligned (spec/20_memory.md R55). -/
theorem wellFormed_buserr_iff (d : Dir) (a : Offset) (x : Word64) :
    (Instr.buserr d a x).WellFormed ↔ a.extractLsb' 0 3 ≠ 0#3 := bne_iff_ne

/-- Settles O4: the command rows, the other aligned rows and the misaligned one. -/
theorem opcodeMapRowByRow : Obligations.OpcodeMapRowByRow :=
  ⟨decode_command _, decode_command _, decode_command _, fun _ => decode_illegal, decode_aligned,
    fun d _ x => decode_misaligned d x⟩

/-- Settles O5: each word is closed, and the decoder is run on it. -/
theorem writtenWordsDecodeAsListed : Obligations.WrittenWordsDecodeAsListed := by
  unfold Obligations.WrittenWordsDecodeAsListed
  decide

/-! ## The round trips between words and operations -/

/-- Settles O1: an operation's word stands in that operation's row. Row 4 and row 20 are where well-formedness is
needed: another row would take the word of a command or of an aligned access. -/
theorem decodeOfEncodeIsTheOperation : Obligations.DecodeOfEncodeIsTheOperation := by
  intro i wellFormed
  cases i with
  | ksched => exact decode_command 1#64
  | encrypt => exact decode_command 2#64
  | decrypt => exact decode_command 3#64
  | cmdIllegal x =>
    obtain ⟨h1, h2, h3⟩ := (wellFormed_cmdIllegal_iff x).mp wellFormed
    exact decode_illegal h1 h2 h3
  | buserr d a x => exact decode_misaligned d x ((wellFormed_buserr_iff d a x).mp wellFormed)
  | _ =>
    simp [encode, Instr.dir, Instr.addr, Instr.wdata, offsetCmd, offsetStatus, offsetKey, offsetDin, offsetDout,
      offsetRkidx, offsetRkdata, offsetRsvd38]

/-- A `CMD` write decodes to a well-formed operation: to CMD_ILLEGAL only where it carries no command. -/
theorem wellFormed_decode_command (x : Word64) : (decode (busWord .write 0x00#6 x)).WellFormed := by
  rw [decode_command]
  split_ifs with h1 h2 h3
  · rfl
  · rfl
  · rfl
  · exact (wellFormed_cmdIllegal_iff x).mpr ⟨h1, h2, h3⟩

/-- Every word decodes to a well-formed operation. -/
theorem wellFormed_decode (d : Dir) (a : Offset) (x : Word64) : (decode (busWord d a x)).WellFormed := by
  by_cases aligned : a.extractLsb' 0 3 = 0#3
  · rcases (aligned_iff a).mp aligned with rfl | rfl | rfl | rfl | rfl | rfl | rfl | rfl
    case inl =>
      cases d with
      | read => simp [Instr.WellFormed, Instr.wellFormed]
      | write => exact wellFormed_decode_command x
    all_goals cases d <;> simp [Instr.WellFormed, Instr.wellFormed]
  · rw [decode_misaligned d x aligned]
    exact (wellFormed_buserr_iff d a x).mpr aligned

/-- The word of an aligned read's operation is the read with no data. -/
theorem encode_decode_of_aligned_read {a : Offset} (x : Word64) (aligned : a.extractLsb' 0 3 = 0#3) :
    encode (decode (busWord .read a x)) = busWord .read a 0#64 := by
  rcases (aligned_iff a).mp aligned with rfl | rfl | rfl | rfl | rfl | rfl | rfl | rfl <;>
    simp only [decode_aligned] <;> rfl

/-- Settles O2: by the word's direction, and for a read by its alignment. -/
theorem everyWordIsSomeOperationsWord : Obligations.EveryWordIsSomeOperationsWord := by
  intro w
  obtain ⟨d, a, x, rfl⟩ : ∃ d a x, w = busWord d a x := ⟨_, _, _, (busWord_fields w).symm⟩
  refine ⟨wellFormed_decode d a x, ?_⟩
  rw [dirOf_busWord, addrOf_busWord]
  cases d with
  | write => simp [encode_decode_of_write]
  | read =>
    by_cases aligned : a.extractLsb' 0 3 = 0#3
    · simp [aligned, encode_decode_of_aligned_read]
    · rw [if_neg (by simp [aligned]), decode_misaligned _ _ aligned]
      rfl

/-! ## First match -/

/-- R71: in a table of which some row matches, `firstMatch` gives the operation of a row that matches and has none
before it that does. -/
theorem firstMatch_splits {rows : List OpcodeRow} {w : BusWord} (some_ : ∃ r ∈ rows, r.accepts w = true) :
    ∃ earlier row later, rows = earlier ++ row :: later ∧ (∀ r ∈ earlier, r.accepts w = false) ∧
      row.accepts w = true ∧ firstMatch rows w = row.build w := by
  induction rows with
  | nil => simp at some_
  | cons first rows ih =>
    by_cases here : first.accepts w = true
    · exact ⟨[], first, rows, rfl, by simp, here, by rw [firstMatch_cons, if_pos here]⟩
    · have rest : ∃ r ∈ rows, r.accepts w = true := by simpa [here] using some_
      obtain ⟨earlier, row, later, rfl, none_, accepts, is⟩ := ih rest
      refine ⟨first :: earlier, row, later, rfl, ?_, accepts, by rw [firstMatch_cons, if_neg here, is]⟩
      simpa [here] using none_

/-- Settles O3: the table always has a row that matches, its last. -/
theorem decodingIsFirstMatch : Obligations.DecodingIsFirstMatch := by
  intro w
  obtain ⟨earlier, row, later, table, none_, accepts, is⟩ := firstMatch_splits (some_row_accepts w)
  exact ⟨earlier, row, later, table, fun r mem => beq_eq_false_iff_ne.mp (none_ r mem), beq_iff_eq.mp accepts, is⟩

/-! ## The illegal command words -/

/-- R74: a word with OP 0 or 4 to 15, or with a reserved bit set, is no command's. -/
theorem not_command_of_fields {x : Word64}
    (illegal : x.extractLsb' 0 4 = 0x0#4 ∨ 0x4#4 ≤ x.extractLsb' 0 4 ∨ x.extractLsb' 4 60 ≠ 0#60) :
    x ≠ 1#64 ∧ x ≠ 2#64 ∧ x ≠ 3#64 := by
  refine ⟨?_, ?_, ?_⟩ <;> rintro rfl <;> revert illegal <;> decide

/-- A `CMD` write that carries no command raises the code of its check, BUSY while busy and else ILLEGAL_CMD
(spec/60_exceptions.md R203, R204). -/
theorem writeCmd_none (s : State) :
    (s.writeCmd none).toDevice = s.toDevice.raiseError (if s.busy = true then .busy else .illegalCmd) := by
  rw [State.writeCmd_toDevice, Device.commandCheck]
  split <;> rfl

/-- Settles O6: no command carries such a word, and the write that carries none only raises its code. -/
theorem illegalCommandWordsByField : Obligations.IllegalCommandWordsByField := by
  intro x illegal
  obtain ⟨h1, h2, h3⟩ := not_command_of_fields illegal
  exact ⟨decode_illegal h1 h2 h3, fun s => ⟨s.writeCmd none, rfl, writeCmd_none s⟩⟩

/-! ## The checked write of a round key -/

/-- With `BUSY = 0` an `RKDATA` write with a nonzero upper part does nothing but set `ERR` to RK_WIDTH and answer
(spec/60_exceptions.md R203). -/
theorem writeRkdata_of_excess {s : State} (idle : s.busy = false) {x : Word64} (excess : roundKeyExcess x ≠ 0#16) :
    (s.onDevice fun m => m.writeRkdata x (m.rkdataCheck x)).answerWrite =
      { s with toDevice := { s.toDevice with err := .rkWidth }, reply := some ⟨none, false⟩ } := by
  have check : s.toDevice.rkdataCheck x = .rkWidth := by simp [Device.rkdataCheck, idle, excess]
  simp only [State.onDevice, check]
  rfl

/-- With `BUSY = 0` an `RKDATA` write with a zero upper part stores its round key and answers. -/
theorem writeRkdata_of_passes {s : State} (idle : s.busy = false) {x : Word64} (fits : roundKeyExcess x = 0#16) :
    (s.onDevice fun m => m.writeRkdata x (m.rkdataCheck x)).answerWrite =
      { s with toDevice := s.toDevice.storeRoundKey (roundKeyField x), reply := some ⟨none, false⟩ } := by
  have check : s.toDevice.rkdataCheck x = .none := (rkdataCheck_eq_none_iff x s.toDevice).mpr ⟨idle, fits⟩
  simp only [State.onDevice, check]
  rfl

/-- `RK_VALID` is all ones exactly when every entry is valid (spec/10_state.md R30, R36). -/
theorem rkValid_full_iff (valid : BitVec 16) : valid = 0xFFFF#16 ↔ ∀ j : BitVec 4, rkValidBit valid j = true := by
  constructor
  · rintro rfl
    exact rkValidBit_full
  · intro all
    apply BitVec.eq_of_getLsbD_eq
    intro i inside
    have index : (BitVec.ofNat 4 i).toNat = i := Nat.mod_eq_of_lt inside
    have bit := (all (BitVec.ofNat 4 i)).trans (rkValidBit_full (BitVec.ofNat 4 i)).symm
    rwa [rkValidBit, rkValidBit, index] at bit

/-- Setting bit `i` fills `RK_VALID` exactly when every other bit was set. -/
theorem rkValidWith_full_iff (valid : BitVec 16) (i : BitVec 4) :
    rkValidWith valid i = 0xFFFF#16 ↔ ∀ j : BitVec 4, j ≠ i → rkValidBit valid j = true := by
  simp only [rkValid_full_iff, rkValidBit_rkValidWith, Bool.or_eq_true, decide_eq_true_eq, or_comm, or_iff_not_imp_left,
    ne_eq]

/-- Settles O13: busy, else an excess of width, else stored. -/
theorem roundKeyWriteIsCheckedThenStored : Obligations.RoundKeyWriteIsCheckedThenStored := by
  intro s x
  refine ⟨by simp only [decode_aligned], fun busy => congrArg _ (writeRkdata_of_busy busy x),
    fun idle excess => congrArg _ (writeRkdata_of_excess idle excess), fun idle fits => ?_⟩
  refine ⟨rkWithEntry s.rk s.rkidx (roundKeyField x), rkValidWith s.rkValid s.rkidx,
    congrArg _ (writeRkdata_of_passes idle fits), fun j => rkEntry_rkWithEntry .., fun j => ?_,
    rkValidWith_full_iff s.rkValid s.rkidx⟩
  rw [Bool.or_comm]
  exact rkValidBit_rkValidWith s.rkValid j s.rkidx

end Sys2Proof.Machine

/-! Proofs of the statements of spec/40_tables.md: the parameters, the tables among them (O33). -/

namespace Sys2Proof.Machine

/-- A completion turn keeps the parameters, whether it completes a command or passes. -/
theorem completionTurn_keeps_cfg {s t : State} (answers : completionTurn s = .next t) : t.cfg = s.cfg := by
  rcases completionTurn_cases s with ⟨-, e⟩ | ⟨p, -, -, e⟩ | ⟨-, -, e⟩ <;> rw [e] at answers <;> cases answers
  · rfl
  · exact s.onDevice_cfg _

/-- An operation keeps the parameters. -/
theorem exec_keeps_cfg {i : Instr} {s t : State} (answers : exec i s = .next t) : t.cfg = s.cfg := by
  obtain ⟨t', answers', cfg, -⟩ := exec_cases i s
  cases answers.symm.trans answers'
  exact cfg

/-- Settles O33: whichever turn the step takes keeps the parameters, and so does taking its event from the script. -/
theorem parametersNeverChange : Obligations.ParametersNeverChange := by
  intro s t answers
  rcases step_cases s with ⟨w, rest, -, e⟩ | ⟨rest, -, e⟩ | ⟨rest, -, e⟩ | ⟨rest, -, e⟩ | ⟨-, -, e⟩ | ⟨-, -, e⟩ <;>
    rw [e] at answers
  · rw [exec_keeps_cfg answers]
  · cases answers
    exact State.onDevice_cfg _ _
  · rw [completionTurn_keeps_cfg answers]
  · cases answers
    exact State.onDevice_cfg _ _
  · rw [completionTurn_keeps_cfg answers]
  · cases answers
    rfl

end Sys2Proof.Machine

/-! Proofs of the statements of spec/41_key_schedule.md: KSCHED's checks, acceptance and completion (O19, O20), the
key's parity (O25), and the reference datapath (O37, O38). -/

namespace Sys2Proof.Machine

/-! ## The reference datapath -/

/-- With no command in flight the datapath has nowhere to be. -/
theorem onCourse_of_no_command (t : Tables) {m : Device} (none_ : m.pend = none) : m.DatapathOnCourse t := by
  simp [Device.DatapathOnCourse, none_]

/-- On course with a KSCHED in flight (R130, R131). -/
theorem onCourse_ksched_iff (t : Tables) {m : Device} {p : Pending} (pend : m.pend = some p)
    (ksched : p.op = .ksched) :
    m.DatapathOnCourse t ↔
      (m.c, m.d) = keyHalves t p.ks m.round.toNat ∧
        ∀ j : BitVec 4, j.toNat < m.round.toNat → rkEntry m.rk j = roundKeyOf t p.ks j.toNat := by
  simp [Device.DatapathOnCourse, pend, ksched]

/-- On course with a block in flight (spec/42_feistel.md R155, R156). -/
theorem onCourse_block_iff (t : Tables) {m : Device} {p : Pending} (pend : m.pend = some p) (block : p.op ≠ .ksched) :
    m.DatapathOnCourse t ↔
      (m.l, m.r) = feistelRounds t (initialHalves t p.bs) ((keysInOrder p.op m.rk).take m.round.toNat) := by
  simp [Device.DatapathOnCourse, pend, block]

/-- KS_LOAD and XF_LOAD put the halves where they are after no round. -/
theorem onCourse_of_accept (t : Tables) (op : Command) (m : Device) : (m.accept t op).DatapathOnCourse t := by
  obtain ⟨-, -, -, -, -, -, -, -, pend, -⟩ := accept_common t op m
  by_cases ksched : op = .ksched
  · subst ksched
    rw [onCourse_ksched_iff t pend rfl, accept_ksched]
    simp [keyHalves_zero]
  · rw [onCourse_block_iff t pend ksched, accept_block t m ksched]
    simp

/-- A command uses every round key once (R150, R151). -/
@[simp] theorem length_keysInOrder (op : Command) (rk : RoundKeyFile) : (keysInOrder op rk).length = 16 := by
  cases op <;> simp [keysInOrder]

section
variable {m : Device} (below : m.round.toNat < 16)
include below

/-- Below 16 the round counter counts up without wrapping. -/
theorem toNat_round_succ : (m.round + 1#5).toNat = m.round.toNat + 1 := by
  rw [BitVec.toNat_add_of_lt (by simp; omega)]
  rfl

/-- Below 16 the round counter is an entry number. -/
theorem toNat_roundIndex : m.roundIndex.toNat = m.round.toNat := by
  simp only [Device.roundIndex, BitVec.toNat_setWidth]
  omega

/-- The entry number of XF_ROUND picks the key whose turn it is in the command's order (R150, R151, R156). -/
theorem getElem_keysInOrder (op : Command) (inside : m.round.toNat < (keysInOrder op m.rk).length) :
    (keysInOrder op m.rk)[m.round.toNat] = rkEntry m.rk (m.roundKeyIndex op) := by
  have ascending : m.rk.toList[m.round.toNat]'(by simpa using below) = rkEntry m.rk m.roundIndex := by
    simp [rkEntry, toNat_roundIndex below]
  cases op with
  | ksched => exact ascending
  | encrypt => exact ascending
  | decrypt =>
    have index : (15#4 - m.roundIndex).toNat = 15 - m.round.toNat := by
      have := toNat_roundIndex below
      bv_omega
    simp [keysInOrder, Device.roundKeyIndex, rkEntry, index]

/-- KS_ROUND keeps a KSCHED on course: it rotates the halves once more and writes the entry the counter names. -/
theorem onCourse_of_keyRound {t : Tables} {p : Pending} (pend : m.pend = some p) (ksched : p.op = .ksched)
    (course : m.DatapathOnCourse t) : (m.keyRound t).DatapathOnCourse t := by
  rw [onCourse_ksched_iff t pend ksched] at course
  obtain ⟨halves, written⟩ := course
  have rotated : rotateHalves t m.round.toNat (m.c, m.d) = keyHalves t p.ks (m.round.toNat + 1) := by
    rw [halves, keyHalves_succ]
  rw [onCourse_ksched_iff t (m := m.keyRound t) pend ksched]
  simp only [Device.keyRound_c, Device.keyRound_d, Device.keyRound_rk, Device.keyRound_round, rotated,
    toNat_round_succ below, rkEntry_rkWithEntry, true_and]
  intro j upto
  split
  · next here => rw [here, toNat_roundIndex below, roundKeyOf]
  · next other =>
    have before : j.toNat ≠ m.round.toNat := fun same =>
      other (BitVec.eq_of_toNat_eq (same.trans (toNat_roundIndex below).symm))
    exact written j (by omega)

/-- XF_ROUND keeps a block on course: it is the round of the next key. -/
theorem onCourse_of_blockRound {t : Tables} {p : Pending} (pend : m.pend = some p) (block : p.op ≠ .ksched)
    (course : m.DatapathOnCourse t) : (m.blockRound t p.op).DatapathOnCourse t := by
  rw [onCourse_block_iff t pend block] at course
  have inside : m.round.toNat < (keysInOrder p.op m.rk).length := by simpa using below
  rw [onCourse_block_iff t (m := m.blockRound t p.op) pend block]
  simp only [Device.blockRound_l, Device.blockRound_r, Device.blockRound_rk, Device.blockRound_round,
    toNat_round_succ below, List.take_succ_eq_append_getElem inside, feistelRounds_append, ← course,
    getElem_keysInOrder below, feistelRounds_cons, feistelRounds_nil]

end

/-- A cycle keeps the datapath on course, whether or not a round is left. -/
theorem onCourse_of_cycle {t : Tables} {m : Device} (course : m.DatapathOnCourse t) :
    (m.cycle t).DatapathOnCourse t := by
  rcases cycle_cases t m with ⟨p, pend, -, below, cycle⟩ | cycle <;> rw [cycle]
  · split
    · next ksched => exact onCourse_of_keyRound below pend ksched course
    · next block => exact onCourse_of_blockRound below pend block course
  · exact course

/-- Settles O37: by what the step did to DESCORE. A reset, a stored round key and a completion leave no command in
flight; acceptance loads the datapath and a cycle moves it on; nothing else touches it. -/
theorem everyStepKeepsTheDatapathOnCourse : Obligations.EveryStepKeepsTheDatapathOnCourse := by
  intro s t inv course answers
  rw [parametersNeverChange s t answers]
  cases effect_of_step answers with
  | reset _ is => rw [is]; exact onCourse_of_no_command _ rfl
  | accept op _ is => rw [is]; exact onCourse_of_accept _ op _
  | store v next is =>
    obtain ⟨idle, -⟩ := next
    obtain ⟨busy, -⟩ := inv
    have none_ : s.pend = none := by simpa [idle] using busy
    rw [is]
    exact onCourse_of_no_command _ none_
  | round _ is => rw [is]; exact onCourse_of_cycle course
  | complete p _ _ is =>
    obtain ⟨-, -, -, -, -, -, none_, -⟩ := complete_common s.cfg.tables p s.toDevice
    rw [is]
    exact onCourse_of_no_command _ none_
  | _ => rw [‹t.toDevice = _›]; exact course

section
variable {t : Tables} {m : Device} {p : Pending} (course : m.DatapathOnCourse t) (pend : m.pend = some p)
  (last : m.round = 16#5)
include course pend last

/-- After sixteen KS_ROUNDs the file is the schedule of the sampled key (R132). -/
theorem rk_of_sixteen_rounds (ksched : p.op = .ksched) : m.rk = deriveRoundKeys t p.ks := by
  obtain ⟨-, written⟩ := (onCourse_ksched_iff t pend ksched).mp course
  refine roundKeyFile_ext fun j => ?_
  rw [rkEntry_deriveRoundKeys]
  exact written j (by rw [last]; exact j.isLt)

/-- After sixteen XF_ROUNDs the halves give the transform of the sampled block (R157). -/
theorem outputBlock_of_sixteen_rounds (block : p.op ≠ .ksched) :
    outputBlock t (m.l, m.r) = transform t p.bs (keysInOrder p.op m.rk) := by
  have all : (keysInOrder p.op m.rk).take m.round.toNat = keysInOrder p.op m.rk :=
    List.take_of_length_le (by simp [last])
  rw [(onCourse_block_iff t pend block).mp course, all, transform]

end

/-- Settles O38: a command's on-course condition at `ROUND = 16`. -/
theorem datapathHoldsTheCommittedResult : Obligations.DatapathHoldsTheCommittedResult := by
  intro s p course pend last
  refine ⟨rk_of_sixteen_rounds course pend last, fun encrypt => ?_, fun decrypt => ?_⟩
  · have output := outputBlock_of_sixteen_rounds course pend last (by simp [encrypt])
    rwa [encrypt] at output
  · have output := outputBlock_of_sixteen_rounds course pend last (by simp [decrypt])
    rwa [decrypt] at output

/-! ## The key's parity -/

/-- Adding bits without carry tells whether an odd number of them is 1. -/
theorem foldl_xor_eq_odd_countP {α : Type} (bit : α → Bool) (l : List α) (start : Bool) :
    l.foldl (fun odd i => odd ^^ bit i) start = (start ^^ decide (l.countP bit % 2 = 1)) := by
  induction l generalizing start with
  | nil => simp
  | cons i l ih =>
    rw [List.foldl_cons, ih, Bool.xor_assoc, List.countP_cons]
    cases bit i
    · simp
    · rcases Nat.mod_two_eq_zero_or_one (l.countP bit) with even | odd
      · simp [Nat.add_mod, even]
      · simp [Nat.add_mod, odd]

/-- R128: a byte of a key has odd parity exactly when an odd number of its bits is 1. -/
theorem oddParity_byteOf_iff (key : Word64) (k : Nat) :
    oddParity (byteOf key k) = true ↔
      ((List.range 8).countP fun i => key.getLsbD (56 - 8 * k + i)) % 2 = 1 := by
  have bits : (List.range 8).countP (fun i => (byteOf key k).getLsbD i) =
      (List.range 8).countP fun i => key.getLsbD (56 - 8 * k + i) :=
    List.countP_congr fun i mem => by simp [byteOf, List.mem_range.mp mem]
  rw [oddParity, foldl_xor_eq_odd_countP, bits, Bool.false_xor, decide_eq_true_iff]

/-- R128: `parity_ok`, byte by byte. -/
theorem parityOk_iff (key : Word64) : parityOk key = true ↔ ∀ k < 8, oddParity (byteOf key k) = true := by
  simp only [parityOk, List.all_eq_true, List.mem_range]

/-! ## The acceptance of KSCHED -/

/-- A `CMD` write that fails its check does nothing but set `ERR` to the code and answer (spec/60_exceptions.md
R203). -/
theorem writeCmd_of_fails {s : State} {op : Option Command} {code : ErrCode} (raises : code ≠ .none)
    (check : s.toDevice.commandCheck s.cfg.checkKeyParity op = code) :
    s.writeCmd op = { s with toDevice := { s.toDevice with err := code }, reply := some ⟨none, false⟩ } := by
  have device : (s.writeCmd op).toDevice = { s.toDevice with err := code } := by
    rcases writeCmd_cases s op with ⟨_, -, passes, -⟩ | ⟨code', -, check', is⟩
    · exact absurd (check.symm.trans passes) raises
    · rw [is, ← check', check]; rfl
  rw [← device]
  rfl

/-- A `CMD` write that passes its check is accepted with its command, and answers (R203). -/
theorem writeCmd_of_passes {s : State} {op : Command}
    (check : s.toDevice.commandCheck s.cfg.checkKeyParity (some op) = .none) :
    s.writeCmd (some op) =
      { s with toDevice := s.toDevice.accept s.cfg.tables op, reply := some ⟨none, false⟩ } := by
  have device : (s.writeCmd (some op)).toDevice = s.toDevice.accept s.cfg.tables op := by
    rw [State.writeCmd_toDevice, check]; rfl
  rw [← device]
  rfl

section
variable {s : State} (idle : s.busy = false)
include idle

/-- With `BUSY = 0` the check of a KSCHED fails by the key's parity where that is enforced (R126, R128). -/
theorem exec_ksched_of_bad_parity (enforced : s.cfg.checkKeyParity = true) (bad : parityOk s.key = false) :
    exec .ksched s =
      .next { s with toDevice := { s.toDevice with err := .keyParity }, reply := some ⟨none, false⟩ } :=
  congrArg _ (writeCmd_of_fails (by simp) (by simp [Device.commandCheck, idle, enforced, bad]))

/-- With `BUSY = 0` a KSCHED is else accepted (R126). -/
theorem exec_ksched_of_passes (passes : s.cfg.checkKeyParity = false ∨ parityOk s.key = true) :
    exec .ksched s =
      .next { s with toDevice := s.toDevice.accept s.cfg.tables .ksched, reply := some ⟨none, false⟩ } :=
  congrArg _ (writeCmd_of_passes ((commandCheck_eq_none_iff ..).mpr ⟨idle, .inl ⟨rfl, passes⟩⟩))

end

/-- An accepted KSCHED reads as BUSY alone in `STATUS` (R126). -/
theorem statusWord_of_accept_ksched (t : Tables) (m : Device) : (m.accept t .ksched).statusWord = 1#64 := by
  simp [accept_ksched, Device.statusWord, Device.rkReady, ErrCode.code]

/-- Settles O19: busy, else turned away by the parity check, else accepted; what KS_LOAD and acceptance leave is the
record the statement writes out. -/
theorem kschedIsCheckedThenAccepted : Obligations.KschedIsCheckedThenAccepted := fun _ =>
  ⟨fun busy => congrArg _ (writeCmd_of_busy busy (some .ksched)), exec_ksched_of_bad_parity,
    fun idle passes => ⟨_, exec_ksched_of_passes idle passes, statusWord_of_accept_ksched .., rfl⟩⟩

/-- Settles O25: the bytes counted, and the check of an idle KSCHED with and without enforcement. -/
theorem parityIsCheckedOnlyWhereEnforced : Obligations.ParityIsCheckedOnlyWhereEnforced := by
  refine ⟨fun key => ?_, fun s idle => ⟨exec_ksched_of_bad_parity idle, fun unchecked => ?_⟩⟩
  · simp only [parityOk_iff, oddParity_byteOf_iff]
  · exact ⟨_, exec_ksched_of_passes idle (.inl unchecked), rfl, rfl⟩

/-! ## The completion of KSCHED -/

/-- Where KSCHED's completion leaves the halves: the key's after sixteen rounds, the block's as they were
(notes/assumptions/4.md). -/
theorem complete_ksched_halves (t : Tables) {p : Pending} (op : p.op = .ksched) (m : Device) :
    ((m.complete t p).c, (m.complete t p).d) = keyHalves t p.ks 16 ∧
    (m.complete t p).l = m.l ∧ (m.complete t p).r = m.r := by
  simp [Device.complete, op]

/-- Settles O20: register by register, by what completion does to DESCORE. -/
theorem kschedCompletionFillsTheFile : Obligations.KschedCompletionFillsTheFile := by
  intro s ks bs next pend
  refine ⟨_, step_of_completes next pend, ?_⟩
  simp [complete_common, complete_ksched, complete_ksched_halves, Device.rkReady]

end Sys2Proof.Machine

/-! Proofs of the statements of spec/42_feistel.md: ENCRYPT's and DECRYPT's checks, acceptance and completion (O21,
O22), the cycles of the datapath (O41), and a key schedule with a transform after it (O43). -/

namespace Sys2Proof.Machine

/-! ## The checks, the acceptance and the completion of a block command -/

/-- The check of a block command: busy, else whether sixteen round keys are valid (spec/60_exceptions.md R203). -/
theorem commandCheck_block (parityChecked : Bool) {op : Command} (block : op ≠ .ksched) (m : Device) :
    m.commandCheck parityChecked (some op) =
      if m.busy then .busy else if m.rkReady then .none else .rkIncomplete := by
  cases op with
  | ksched => exact absurd rfl block
  | encrypt => rfl
  | decrypt => rfl

section
variable {s : State} {op : Command} (block : op ≠ .ksched) (idle : s.busy = false)
include block idle

/-- With `BUSY = 0` and not all sixteen round keys valid, a block command is turned away (spec/42_feistel.md R150,
R151). -/
theorem writeCmd_block_of_incomplete (incomplete : s.rkValid ≠ 0xFFFF#16) :
    s.writeCmd (some op) =
      { s with toDevice := { s.toDevice with err := .rkIncomplete }, reply := some ⟨none, false⟩ } :=
  writeCmd_of_fails (by simp) (by simp [commandCheck_block, block, idle, Device.rkReady, incomplete])

/-- With all of them valid it is accepted (R152, R155). -/
theorem writeCmd_block_of_ready (ready : s.rkValid = 0xFFFF#16) :
    s.writeCmd (some op) =
      { s with
        toDevice := (s.toDevice.loadBlock s.cfg.tables).startCommand op
        reply := some ⟨none, false⟩ } := by
  rw [writeCmd_of_passes (by simp [commandCheck_block, block, idle, Device.rkReady, ready]), accept_block _ _ block]

end

/-- Where a block command's completion leaves the halves: the block's after all its rounds, the key's as they were
(notes/assumptions/4.md). -/
theorem complete_block_halves (t : Tables) {p : Pending} (op : p.op ≠ .ksched) (m : Device) :
    ((m.complete t p).l, (m.complete t p).r) = feistelRounds t (initialHalves t p.bs) (keysInOrder p.op m.rk) ∧
    (m.complete t p).c = m.c ∧ (m.complete t p).d = m.d := by
  cases which : p.op with
  | ksched => exact absurd which op
  | encrypt => simp [Device.complete, which]
  | decrypt => simp [Device.complete, which]

/-- A completion step of a block command, register by register (R150, R151, spec/10_state.md R38). -/
theorem step_of_block_completes {s : State} {op : Command} {ks bs : Word64} (block : op ≠ .ksched)
    (next : s.CompletesNext) (pend : s.pend = some ⟨op, ks, bs⟩) :
    ∃ t, step s = .next t ∧ t.dout = transform s.cfg.tables bs (keysInOrder op s.rk) ∧
      (t.l, t.r) = feistelRounds s.cfg.tables (initialHalves s.cfg.tables bs) (keysInOrder op s.rk) ∧
      t.round = 16#5 ∧ t.c = s.c ∧ t.d = s.d ∧
      t.busy = false ∧ t.done = true ∧ t.pend = none ∧ t.rk = s.rk ∧ t.rkValid = s.rkValid ∧ t.key = s.key ∧
      t.din = s.din ∧ t.rkidx = s.rkidx ∧ t.err = s.err ∧ t.cfg = s.cfg ∧ t.reply = s.reply ∧
      t.busErrors = s.busErrors ∧ t.script = s.script.tail := by
  refine ⟨_, step_of_completes next pend, ?_⟩
  simp [complete_common, complete_block, complete_block_halves, block]

/-- Settles O21: the three outcomes of the check, and the completion with the keys in ENCRYPT's order. -/
theorem encryptTransformsInAscendingOrder : Obligations.EncryptTransformsInAscendingOrder :=
  ⟨fun _ busy => congrArg _ (writeCmd_of_busy busy (some .encrypt)),
    fun _ idle incomplete => congrArg _ (writeCmd_block_of_incomplete (op := .encrypt) (by simp) idle incomplete),
    fun _ idle ready => congrArg _ (writeCmd_block_of_ready (op := .encrypt) (by simp) idle ready),
    fun _ _ _ => step_of_block_completes (op := .encrypt) (by simp)⟩

/-- Settles O22: the three outcomes of the check, and the completion with the keys in DECRYPT's order. -/
theorem decryptTransformsInDescendingOrder : Obligations.DecryptTransformsInDescendingOrder :=
  ⟨fun _ busy => congrArg _ (writeCmd_of_busy busy (some .decrypt)),
    fun _ idle incomplete => congrArg _ (writeCmd_block_of_incomplete (op := .decrypt) (by simp) idle incomplete),
    fun _ idle ready => congrArg _ (writeCmd_block_of_ready (op := .decrypt) (by simp) idle ready),
    fun _ _ _ => step_of_block_completes (op := .decrypt) (by simp)⟩

/-! ## A cycle of the datapath -/

/-- A step of a round event, as a next state. -/
theorem step_of_round {s : State} (next : s.script.head? = some .round) :
    step s = .next { s.afterEvent with toDevice := s.toDevice.cycle s.cfg.tables } := by
  have script := script_of_head next
  simp only [step, nextTurn]
  rw [script]
  rfl

/-- Settles O41: a cycle shows nothing while the valid bits fit the command in flight. -/
theorem datapathCyclesAreInvisible : Obligations.DatapathCyclesAreInvisible := by
  rintro s ⟨-, -, -, fits⟩ next
  exact ⟨_, step_of_round next, cycle_looksLike _ fits, rfl, rfl, rfl, rfl⟩

/-! ## A key schedule, then a transform -/

/-- A step of a write answers a next state, with the parameters kept and the event taken. -/
theorem step_of_write_answers {s : State} {offset : Offset} {x : Word64} (next : s.WritesNext offset x) :
    ∃ t, step s = .next t ∧ t.cfg = s.cfg ∧ t.script = s.script.tail := by
  obtain ⟨t, answers, cfg, script, -⟩ := exec_cases (decode (busWord .write offset x)) s.afterEvent
  exact ⟨t, (step_of_writes next).trans answers, cfg, script⟩

/-- A write to `DIN`: the block stored (spec/43_register_access.md R176). -/
theorem toDevice_of_din_write {s t : State} (answers : step s = .next t) {x : Word64}
    (next : s.WritesNext offsetDin x) : t.toDevice = s.toDevice.setDin x := by
  rw [step_of_writes next] at answers
  simp only [decode_register_write] at answers
  cases answers
  rfl

/-- A command from its acceptance to its completion, with quiet events between: what it commits rests on `KEY`, `DIN`
and `RK` as they were at acceptance (spec/10_state.md R37, R38). -/
theorem run_of_command {s : State} {op : Command} {es rest : List Event} (next : s.AcceptsNext op)
    (script : s.script.tail = es ++ .completion :: rest) (quiet : ∀ e ∈ es, e.quiet = true) :
    ∃ t, core.run (es.length + 2) s = .next t ∧ t.script = rest ∧ t.cfg = s.cfg ∧
      t.busy = false ∧ t.done = true ∧ t.err = .none ∧ t.pend = none ∧
      (op = .ksched → t.rk = deriveRoundKeys s.cfg.tables s.key ∧ t.rkValid = 0xFFFF#16) ∧
      (op ≠ .ksched → t.dout = transform s.cfg.tables s.din (keysInOrder op s.rk)) := by
  have ⟨_, issued, _⟩ := next
  obtain ⟨a, accepted, cfgA, scriptA⟩ := step_of_write_answers issued
  have isA := toDevice_of_accepts accepted next
  obtain ⟨b, waited, scriptB, cfgB, -, -, -, busyB, -, errB, pendB, rkB⟩ := run_of_quiet (scriptA.trans script) quiet
  simp only [isA, accept_common] at busyB errB pendB rkB
  have cfg : b.cfg = s.cfg := cfgB.trans cfgA
  have completed := step_of_completes ⟨busyB, .inr (congrArg List.head? scriptB)⟩ pendB
  have run : core.run (es.length + 2) s = core.run 1 b := by
    rw [show es.length + 2 = 1 + (es.length + 1) by omega, run_add (run_one accepted), run_add waited]
  refine ⟨_, run.trans (run_one completed), congrArg List.tail scriptB, cfg, ?_⟩
  simp only [complete_common, cfg, errB, true_and]
  refine ⟨fun ksched => ?_, fun block => ?_⟩
  · simp [complete_ksched, ksched]
  · simp [complete_block, block, rkB]

/-- A block written to an idle DESCORE, with quiet events before and after: the round keys stay. -/
theorem run_of_block_write {s : State} {block : Word64} {before after rest : List Event} (idle : s.pend = none)
    (script : s.script = before ++ .access (busWord .write offsetDin block) :: (after ++ rest))
    (quietBefore : ∀ e ∈ before, e.quiet = true) (quietAfter : ∀ e ∈ after, e.quiet = true) :
    ∃ t, core.run (before.length + after.length + 1) s = .next t ∧ t.script = rest ∧ t.cfg = s.cfg ∧
      t.busy = s.busy ∧ t.din = block ∧ t.rk = s.rk ∧ t.rkValid = s.rkValid := by
  obtain ⟨a, runA, scriptA, cfgA, -, -, validA, busyA, -, -, pendA, rkA⟩ := run_of_quiet script quietBefore
  have next : a.WritesNext offsetDin block := congrArg List.head? scriptA
  obtain ⟨b, written, cfgB, scriptB⟩ := step_of_write_answers next
  have isB := toDevice_of_din_write written next
  rw [scriptA, List.tail_cons] at scriptB
  obtain ⟨c, runC, scriptC, cfgC, dinC, -, validC, busyC, -, -, -, rkC⟩ := run_of_quiet scriptB quietAfter
  simp only [isB, Device.setDin_din, Device.setDin_rkValid, Device.setDin_busy, Device.setDin_pend, Device.setDin_rk,
    pendA, idle] at dinC validC busyC rkC
  refine ⟨c, ?_, scriptC, cfgC.trans (cfgB.trans cfgA), busyC.trans busyA, dinC, ?_, validC.trans validA⟩
  · rw [show before.length + after.length + 1 = before.length + (1 + after.length) by omega, run_add runA,
      run_add (run_one written)]
    exact runC
  · rw [rkC (by simp), rkA (by simp [idle])]

/-- Settles O43: the schedule's command, the block's write, and the transform's command, one run after the other. -/
theorem scheduleThenTransformIsTheCipher : Obligations.ScheduleThenTransformIsTheCipher := by
  intro s op block before between after pending rest transforms idle parity quiet script
  simp only [List.mem_append, or_imp, forall_and] at quiet
  obtain ⟨⟨⟨quietBefore, quietBetween⟩, quietAfter⟩, quietPending⟩ := quiet
  simp only [List.cons_append, List.append_assoc] at script
  obtain ⟨a, runA, scriptA, cfgA, busyA, -, -, pendA, scheduled, -⟩ := run_of_command (op := .ksched)
    ⟨idle, congrArg List.head? script, by simpa using parity⟩ (congrArg List.tail script) quietBefore
  obtain ⟨rkA, validA⟩ := scheduled rfl
  obtain ⟨b, runB, scriptB, cfgB, busyB, dinB, rkB, validB⟩ :=
    run_of_block_write pendA scriptA quietBetween quietAfter
  obtain ⟨c, runC, scriptC, -, busyC, doneC, errC, -, -, transformed⟩ := run_of_command (op := op)
    ⟨busyB.trans busyA, congrArg List.head? scriptB, by simpa [transforms] using validB.trans validA⟩
    (congrArg List.tail scriptB) quietPending
  refine ⟨c, ?_, scriptC, busyC, doneC, errC, ?_⟩
  · rw [show before.length + between.length + after.length + pending.length + 5 =
      (before.length + 2) + ((between.length + after.length + 1) + (pending.length + 2)) by omega,
      run_add runA, run_add runB]
    exact runC
  · rw [transformed transforms, dinB, rkB, rkA, cfgB, cfgA]

end Sys2Proof.Machine

/-! Proofs of the statements of spec/43_register_access.md: what the reads answer (O10, O11), and what the writes but
those of `CMD` and `RKDATA` store (O12). -/

namespace Sys2Proof.Machine

/-! ## The reads -/

/-- The codes' values as a chain of conditions (R200). -/
theorem code_eq_ite (e : ErrCode) :
    e.code =
      if e = .none then 0x0#4 else if e = .illegalCmd then 0x1#4 else if e = .busy then 0x2#4
      else if e = .rkIncomplete then 0x3#4 else if e = .rkWidth then 0x4#4 else 0x5#4 := by
  cases e <;> rfl

/-- Settles O10: each offset's row is that of its read, whose arm answers the value; for `STATUS` the code's value is
the chain's (R200). -/
theorem readsAnswerTheirRegister : Obligations.ReadsAnswerTheirRegister := by
  simp only [Obligations.ReadsAnswerTheirRegister, ReadsAs, decode_aligned, implies_true, true_and, ← code_eq_ite]
  exact ⟨fun _ => rfl, fun _ => rfl, fun _ => rfl, fun _ => rfl, fun _ => rfl⟩

/-- Settles O11: each offset's row is that of its read, whose arm answers the value. -/
theorem dataReadsAnswerTheirRegister : Obligations.DataReadsAnswerTheirRegister := by
  simp only [Obligations.DataReadsAnswerTheirRegister, ReadsAs, decode_aligned, implies_true, true_and]
  exact ⟨fun _ => rfl, fun _ => rfl, fun _ => rfl⟩

/-! ## The unchecked writes -/

/-- Settles O12: each offset's row is that of its write, whose arm stores the register without looking at `BUSY`. -/
theorem writesStoreTheirRegister : Obligations.WritesStoreTheirRegister := by
  simp only [Obligations.WritesStoreTheirRegister, WritesAs, decode_aligned, implies_true, true_and]
  exact ⟨fun _ _ => rfl, fun _ _ => rfl, fun _ _ => rfl, fun _ _ => rfl, fun _ _ => rfl, fun _ _ => rfl⟩

end Sys2Proof.Machine

/-! Proofs of the statements of spec/60_exceptions.md: the bus error and the record of faulted accesses (O16, O17), the
checks of `CMD` and `RKDATA` writes and what a rejection leaves alone (O18, O23, O24), and that no step stops (O39). -/

namespace Sys2Proof.Machine

/-! ## The bus error -/

/-- The operation a word decodes to addresses the word's offset. -/
theorem addr_decode (w : BusWord) : (decode w).addr = addrOf w := by
  obtain ⟨-, word⟩ := everyWordIsSomeOperationsWord w
  obtain ⟨-, addr, -⟩ := encodedFields (decode w)
  rw [← addr, word]
  split
  · exact addrOf_busWord ..
  · rfl

/-- Only a misaligned access decodes to BUSERR (spec/20_memory.md R55). -/
theorem misaligned_of_decode_buserr {w : BusWord} {d : Dir} {a : Offset} {x : Word64}
    (is : decode w = .buserr d a x) :
    (addrOf w).extractLsb' 0 3 ≠ 0#3 := by
  obtain ⟨wellFormed, -⟩ := everyWordIsSomeOperationsWord w
  rw [is, wellFormed_buserr_iff] at wellFormed
  rwa [← addr_decode, is]

/-- A misaligned access answers with the error response, a read value of 0 for a read, and is recorded. -/
theorem exec_buserr (d : Dir) (a : Offset) (x : Word64) (s : State) :
    exec (.buserr d a x) s =
      .next { s with
        reply := some ⟨if d = .read then some 0#64 else none, true⟩
        busErrors := s.busErrors ++ [⟨d, a⟩] } := by
  cases d <;> rfl

/-- The operation of a misaligned word does so with the word's own direction and offset. -/
theorem exec_decode_misaligned {w : BusWord} (misaligned : (addrOf w).extractLsb' 0 3 ≠ 0#3) (s : State) :
    exec (decode w) s = .next (s.raiseBusError (dirOf w) (addrOf w)) := by
  have is := decode_misaligned (dirOf w) (wdataOf w) misaligned
  rw [busWord_fields] at is
  rw [is]
  rfl

/-- An aligned access records nothing. -/
theorem busErrors_of_aligned {w : BusWord} (aligned : (addrOf w).extractLsb' 0 3 = 0#3) {s t : State}
    (answers : exec (decode w) s = .next t) : t.busErrors = s.busErrors := by
  obtain ⟨t', answers', -, -, -, kept | ⟨d, a, x, is, -⟩⟩ := exec_cases (decode w) s
  · cases answers.symm.trans answers'
    exact kept
  · exact absurd aligned (misaligned_of_decode_buserr is)

/-- A completion turn records nothing. -/
theorem completionTurn_keeps_busErrors {s t : State} (answers : completionTurn s = .next t) :
    t.busErrors = s.busErrors := by
  rcases completionTurn_cases s with ⟨-, e⟩ | ⟨p, -, -, e⟩ | ⟨-, -, e⟩ <;> rw [e] at answers <;> cases answers
  · rfl
  · exact s.onDevice_busErrors _

/-- Settles O17: an access records itself exactly where it is misaligned, and no other turn records. -/
theorem faultedAccessesStayRecorded : Obligations.FaultedAccessesStayRecorded := by
  intro s t answers
  rcases step_cases s with ⟨w, rest, script, e⟩ | ⟨rest, script, e⟩ | ⟨rest, script, e⟩ | ⟨rest, script, e⟩ |
    ⟨script, -, e⟩ | ⟨script, -, e⟩ <;> rw [e] at answers
  · by_cases aligned : (addrOf w).extractLsb' 0 3 = 0#3
    · exact .inr ⟨by simpa [script] using aligned, by rw [busErrors_of_aligned aligned answers]⟩
    · rw [exec_decode_misaligned aligned] at answers
      cases answers
      exact .inl ⟨w, by rw [script]; rfl, aligned, rfl⟩
  · cases answers
    exact .inr ⟨by simp [script], rfl⟩
  · exact .inr ⟨by simp [script], by rw [completionTurn_keeps_busErrors answers]⟩
  · cases answers
    exact .inr ⟨by simp [script], rfl⟩
  · exact .inr ⟨by simp [script], by rw [completionTurn_keeps_busErrors answers]⟩
  · cases answers
    exact .inr ⟨by simp [script], rfl⟩

/-- Settles O16: the last row of the table and its arm, and the record after any step (O17). -/
theorem misalignedAccessOnlyAnswersAndRecords : Obligations.MisalignedAccessOnlyAnswersAndRecords := by
  refine ⟨fun d a x s misaligned => ⟨decode_misaligned d x misaligned, exec_buserr d a x s⟩, fun s t answers => ?_⟩
  rcases faultedAccessesStayRecorded s t answers with ⟨w, -, -, recorded⟩ | ⟨-, kept⟩
  · exact ⟨_, recorded⟩
  · exact ⟨[], by rw [kept, List.append_nil]⟩

/-! ## The checks of `CMD` and `RKDATA` writes -/

/-- With `BUSY = 0` a `CMD` write that carries no command does nothing but set `ERR` to ILLEGAL_CMD and answer
(R203, R204). -/
theorem writeCmd_none_of_idle {s : State} (idle : s.busy = false) :
    s.writeCmd none =
      { s with toDevice := { s.toDevice with err := .illegalCmd }, reply := some ⟨none, false⟩ } :=
  writeCmd_of_fails (by simp) (by simp [Device.commandCheck, idle])

/-- Settles O23: the row of every word that is no command's, and its arm while busy and while not. -/
theorem illegalCommandSetsOnlyErr : Obligations.IllegalCommandSetsOnlyErr :=
  ⟨fun _ => decode_illegal, fun _ _ =>
    ⟨fun busy => congrArg _ (writeCmd_of_busy busy none), fun idle => congrArg _ (writeCmd_none_of_idle idle)⟩⟩

/-- A `CMD` write that leaves a code has changed nothing of DESCORE but `ERR` (R201). -/
theorem writeCmd_toDevice_of_err {s : State} {op : Option Command} (raised : (s.writeCmd op).err ≠ .none) :
    (s.writeCmd op).toDevice = { s.toDevice with err := (s.writeCmd op).err } := by
  rcases writeCmd_cases s op with ⟨command, -, passes, -⟩ | ⟨code, -, -, is⟩
  · exact absurd ((writeCmd_err s op).trans passes) raised
  · rw [is]; rfl

/-- The same of an `RKDATA` write (R201). -/
theorem writeRkdata_of_err {m : Device} {x : Word64} (raised : (m.writeRkdata x (m.rkdataCheck x)).err ≠ .none) :
    m.writeRkdata x (m.rkdataCheck x) = { m with err := (m.writeRkdata x (m.rkdataCheck x)).err } := by
  rcases writeRkdata_cases m x with ⟨passes, -⟩ | ⟨code, -, -, is⟩
  · exact absurd ((writeRkdata_err m x).trans passes) raised
  · rw [is]; rfl

/-- Settles O24: the operations that write to one of the two offsets are the four of `CMD`, that of `RKDATA`, and a
BUSERR, which changes nothing of DESCORE. -/
theorem rejectedWriteChangesOnlyErr : Obligations.RejectedWriteChangesOnlyErr := by
  intro i s t answers raised writes offset
  cases i with
  | ksched => cases answers; exact writeCmd_toDevice_of_err raised
  | encrypt => cases answers; exact writeCmd_toDevice_of_err raised
  | decrypt => cases answers; exact writeCmd_toDevice_of_err raised
  | cmdIllegal _ => cases answers; exact writeCmd_toDevice_of_err raised
  | wrRkdata x => cases answers; exact writeRkdata_of_err raised
  | buserr _ _ _ => cases answers; rfl
  | _ => simp [Instr.dir, Instr.addr, offsetStatus, offsetKey, offsetDin, offsetDout, offsetRkidx,
      offsetRsvd38] at writes offset

/-- A `CMD` write of the command starts it: what R203 says of a pass. -/
def State.Starts (s : State) (op : Command) : Prop :=
  (s.writeCmd (some op)).err = .none ∧ (s.writeCmd (some op)).busy = true ∧ (s.writeCmd (some op)).done = false ∧
    (s.writeCmd (some op)).pend = some ⟨op, s.key, s.din⟩

/-- With `BUSY = 0` a command whose own condition holds is started (R203). -/
theorem starts_of_passes {s : State} {op : Command} (idle : s.busy = false)
    (ready : if op = .ksched then s.cfg.checkKeyParity = false ∨ parityOk s.key = true else s.rkValid = 0xFFFF#16) :
    s.Starts op := by
  have passes : s.toDevice.commandCheck s.cfg.checkKeyParity (some op) = .none := by
    rw [commandCheck_eq_none_iff]
    cases op <;> simpa [idle, Device.rkReady] using ready
  rw [State.Starts, writeCmd_of_passes passes]
  simp [accept_common]

/-- R203's list for a KSCHED with `BUSY = 0`. -/
theorem ksched_write_checked {s : State} (idle : s.busy = false) :
    if s.cfg.checkKeyParity = true ∧ parityOk s.key = false then
      (s.writeCmd (some .ksched)).toDevice = { s.toDevice with err := .keyParity }
    else s.Starts .ksched := by
  split_ifs with bad
  · obtain ⟨enforced, bad⟩ := bad
    exact congrArg (·.toDevice) (Host.Outcome.next.inj (exec_ksched_of_bad_parity idle enforced bad))
  · exact starts_of_passes idle (by simpa [or_iff_not_imp_left] using bad)

/-- R203's list for a block command with `BUSY = 0`. -/
theorem block_write_checked {s : State} {op : Command} (block : op ≠ .ksched) (idle : s.busy = false) :
    if s.rkValid ≠ 0xFFFF#16 then
      (s.writeCmd (some op)).toDevice = { s.toDevice with err := .rkIncomplete }
    else s.Starts op := by
  split_ifs with incomplete
  · rw [writeCmd_block_of_incomplete block idle incomplete]
  · exact starts_of_passes idle (by simpa [block] using incomplete)

/-- Settles O18: a `CMD` write by what its word carries: nothing, KSCHED, or a block command, each with its own check;
an `RKDATA` write by the two checks of its list. -/
theorem writesAreCheckedInOrder : Obligations.WritesAreCheckedInOrder := by
  intro s w
  constructor
  · obtain ⟨op, carries, runs⟩ := exec_command_write w
    refine ⟨s.writeCmd op, runs s, ?_⟩
    by_cases busy : s.busy = true
    · rw [if_pos busy, writeCmd_of_busy busy]
    have idle : s.busy = false := by simpa using busy
    rw [if_neg busy]
    cases op with
    | none =>
      have illegal : ¬(w = 1#64 ∨ w = 2#64 ∨ w = 3#64) := by
        rintro (is | is | is)
        · cases (carries .ksched).mpr is
        · cases (carries .encrypt).mpr is
        · cases (carries .decrypt).mpr is
      rw [if_pos illegal, writeCmd_none_of_idle idle]
    | some op =>
      obtain rfl := (carries op).mp rfl
      cases op with
      | ksched => simpa [Command.word, State.Starts] using ksched_write_checked idle
      | encrypt => simpa [Command.word, State.Starts] using block_write_checked (op := .encrypt) (by simp) idle
      | decrypt => simpa [Command.word, State.Starts] using block_write_checked (op := .decrypt) (by simp) idle
  · simp only [decode_aligned]
    refine ⟨_, rfl, ?_⟩
    split_ifs with busy excess
    · rw [writeRkdata_of_busy busy]
    · rw [writeRkdata_of_excess (by simpa using busy) excess]
    · rw [writeRkdata_of_passes (by simpa using busy) (not_not.mp excess)]
      refine ⟨?_, ?_, rfl⟩
      · simp [roundKeyField]
      · simpa [rkValidBit] using rkValidBit_rkValidWith s.rkValid s.rkidx s.rkidx

/-! ## No step stops -/

/-- A completion turn answers a next state, where `BUSY = 1` only with a command recorded (spec/10_state.md R37). -/
theorem completionTurn_answers {s : State} (recorded : s.busy = s.pend.isSome) : ∃ t, completionTurn s = .next t := by
  rcases completionTurn_cases s with ⟨-, e⟩ | ⟨p, -, -, e⟩ | ⟨busy, none_, -⟩
  · exact ⟨_, e⟩
  · exact ⟨_, e⟩
  · simp [busy, none_] at recorded

/-- Settles O39: of the turns only that of completion can stop, and the invariant rules its fault out. -/
theorem noStepStopsUnderTheInvariant : Obligations.NoStepStopsUnderTheInvariant := by
  rintro s ⟨recorded, -, -, -⟩
  rcases step_cases s with ⟨w, rest, -, e⟩ | ⟨rest, -, e⟩ | ⟨rest, -, e⟩ | ⟨rest, -, e⟩ | ⟨-, -, e⟩ | ⟨-, -, e⟩ <;>
    rw [e]
  · obtain ⟨t, answers, -⟩ := exec_cases (decode w) { s with script := rest }
    exact ⟨t, answers⟩
  · exact ⟨_, rfl⟩
  · exact completionTurn_answers recorded
  · exact ⟨_, rfl⟩
  · exact completionTurn_answers recorded
  · exact ⟨_, rfl⟩

end Sys2Proof.Machine

/-! Proofs of the statements of spec/70_reset_and_hazards.md: what a reset leaves (O9, O35), and that every run
finishes (O42). -/

namespace Sys2Proof.Machine

/-! ## Reset -/

/-- A step of a reset, as a next state: a command in flight is abandoned (R231). -/
theorem step_of_resets {s : State} (next : s.ResetsNext) :
    step s = .next { s.afterEvent with toDevice := Device.reset } := by
  have script := script_of_head next
  simp only [step, nextTurn]
  rw [script]
  rfl

/-- After reset `STATUS` reads 0: no valid bit, no error, neither done nor busy (R230). -/
@[simp] theorem statusWord_reset : Device.reset.statusWord = 0#64 := by decide

/-- After reset the round keys are not ready, since no entry is valid (R230). -/
@[simp] theorem rkReady_reset : Device.reset.rkReady = false := by decide

/-- Settles O9: a reset puts `Device.reset` in the place of DESCORE and keeps the parameters; the machine starts with
the same DESCORE. -/
theorem resetLeavesTheResetState : Obligations.ResetLeavesTheResetState := by
  constructor
  · intro s next
    exact ⟨_, step_of_resets next, rfl, rfl, rfl, rfl, rfl, rfl, rfl, rfl, rfl, statusWord_reset, rkReady_reset, rfl⟩
  · exact ⟨rfl, rfl, rfl, rfl, rfl, rfl, rfl, rfl, rfl, statusWord_reset, rkReady_reset⟩

/-- Settles O35: no command is in flight after reset, and `ROUND` is 0. -/
theorem resetMeetsTheInvariant : Obligations.ResetMeetsTheInvariant :=
  ⟨inv_of_idle rfl rfl (by decide), onCourse_of_no_command _ rfl⟩

/-! ## Every run finishes -/

/-- A completion turn leaves the script alone, whether it completes a command or passes. -/
theorem completionTurn_keeps_script {s t : State} (answers : completionTurn s = .next t) : t.script = s.script := by
  rcases completionTurn_cases s with ⟨-, e⟩ | ⟨p, -, -, e⟩ | ⟨-, -, e⟩ <;> rw [e] at answers <;> cases answers
  · rfl
  · exact s.onDevice_script _

/-- An operation leaves the script alone: the step took its event before. -/
theorem exec_keeps_script {i : Instr} {s t : State} (answers : exec i s = .next t) : t.script = s.script := by
  obtain ⟨t', answers', -, script, -⟩ := exec_cases i s
  cases answers.symm.trans answers'
  exact script

/-- Every step takes the next event off the script, and nothing else of it (notes/assumptions/1.md). -/
theorem step_takes_event {s t : State} (answers : step s = .next t) : t.script = s.script.tail := by
  rcases step_cases s with ⟨w, rest, script, e⟩ | ⟨rest, script, e⟩ | ⟨rest, script, e⟩ | ⟨rest, script, e⟩ |
    ⟨script, -, e⟩ | ⟨script, -, e⟩ <;> rw [e] at answers
  · rw [exec_keeps_script answers, script, List.tail_cons]
  · cases answers
    rw [script, List.tail_cons, State.onDevice_script]
  · rw [completionTurn_keeps_script answers, script, List.tail_cons]
  · cases answers
    rw [script, List.tail_cons, State.onDevice_script]
  · rw [completionTurn_keeps_script answers, script, List.tail_nil]
  · cases answers
    rw [script, List.tail_nil]

/-- Under the invariant a run through the whole script meets no stop, and ends under the invariant. -/
theorem run_of_script {s : State} (inv : s.Inv) :
    ∃ t, core.run s.script.length s = .next t ∧ t.script = [] ∧ t.Inv := by
  generalize script : s.script = es
  induction es generalizing s with
  | nil => exact ⟨s, rfl, script, inv⟩
  | cons e es ih =>
    obtain ⟨u, answers⟩ := noStepStopsUnderTheInvariant s inv
    have left_ : u.script = es := by rw [step_takes_event answers, script, List.tail_cons]
    obtain ⟨t, run, done⟩ := ih (everyStepKeepsTheInvariant s u inv answers) left_
    refine ⟨t, ?_, done⟩
    rw [List.length_cons, Nat.add_comm, run_add (run_one answers)]
    exact run

/-- Once the script has ended one step more finishes the run: a command in flight completes (R236), and an idle machine
stays as it is (R246). -/
theorem step_of_ended_script {s : State} (inv : s.Inv) (ended : s.script = []) :
    ∃ t, step s = .next t ∧ t.Finished := by
  obtain ⟨recorded, -, -, -⟩ := inv
  cases busy : s.busy with
  | false => exact ⟨s, (idleTurnsChangeNothing s busy).1 ended, ended, busy⟩
  | true =>
    obtain ⟨p, pend⟩ : ∃ p, s.pend = some p := Option.isSome_iff_exists.mp (recorded.symm.trans busy)
    exact ⟨_, step_of_completes ⟨busy, .inl ended⟩ pend, congrArg List.tail ended, by simp [complete_common]⟩

/-- Settles O42: the script's events, then one step more. -/
theorem everyRunFinishes : Obligations.EveryRunFinishes := by
  intro s inv
  obtain ⟨u, run, ended, invU⟩ := run_of_script inv
  obtain ⟨t, answers, finished⟩ := step_of_ended_script invU ended
  exact ⟨t, (run_add run).trans (run_one answers), finished⟩

end Sys2Proof.Machine

/-! Proofs of the statements of spec/40_tables.md on the printed tables: the permutation tables (O44, O46), the S-boxes
and a look-up (O47, O48), and the shifts (O49). With them, what the rounds of the key schedule and the transform need to
know of rotations and permutations. -/

namespace Sys2Proof.Machine

/-! ## Entries of a table -/

/-- A position inside a table names one of its entries. -/
theorem getD_mem {α : Type} {l : List α} {i : Nat} (inside : i < l.length) (d : α) : l.getD i d ∈ l := by
  rw [List.getD_eq_getElem l d inside]
  exact List.getElem_mem inside

/-- A table without repetitions has each entry at one position. -/
theorem getD_inj_of_nodup {α : Type} {l : List α} (nodup : l.Nodup) {i j : Nat} (hi : i < l.length)
    (hj : j < l.length) {d : α} (same : l.getD i d = l.getD j d) : i = j := by
  rw [List.getD_eq_getElem l d hi, List.getD_eq_getElem l d hj] at same
  exact nodup.getElem_inj_iff.mp same

/-- The printed tables have the shape of R101. -/
theorem standardTables_shaped : standardTables.Shaped := by decide

/-! ## Permutations -/

/-- R100: an entry of a permutation table names a bit of the source, counted from 1. -/
theorem entry_of_fits {t : List Nat} {m n : Nat} (fits : permutationFits t m n) {i : Nat} (inside : i < m) :
    1 ≤ t.getD i 0 ∧ t.getD i 0 ≤ n :=
  fits.2 _ (getD_mem (fits.1 ▸ inside) 0)

/-- A permutation only copies bits, so it commutes with the complement. -/
theorem permute_not {t : List Nat} {m n : Nat} (fits : permutationFits t m n) (v : BitVec n) :
    permute m t (~~~v) = ~~~permute m t v := by
  refine BitVec.eq_of_getMsbD_eq fun i inside => ?_
  have source : t.getD i 0 - 1 < n := by
    have := entry_of_fits fits inside
    omega
  simp only [getMsbD_permute t _ fits.1, BitVec.getMsbD_not, inside, source, decide_true, Bool.true_and]

/-- Table `u` undoes table `t` where looking up in `t` what `u` names at `i` gives `i`, counted from 1. -/
theorem permute_permute_of_inverse {t u : List Nat} {n : Nat} (ht : t.length = n) (hu : u.length = n)
    (undoes : ∀ i < n, t.getD (u.getD i 0 - 1) 0 = i + 1) (v : BitVec n) : permute n u (permute n t v) = v := by
  refine BitVec.eq_of_getMsbD_eq fun i inside => ?_
  have source : u.getD i 0 - 1 < n := by
    by_contra outside
    have entry := undoes i inside
    rw [List.getD_eq_default t 0 (by omega)] at entry
    omega
  simp only [getMsbD_permute u _ hu, getMsbD_permute t v ht, undoes i inside, inside, source, decide_true,
    Bool.true_and, Nat.add_sub_cancel]

/-- FP after IP changes nothing (R104). -/
theorem permute_fp_ip (v : Word64) : permute 64 standardTables.fp (permute 64 standardTables.ip v) = v :=
  permute_permute_of_inverse (n := 64) rfl rfl (by decide) v

/-- IP after FP changes nothing (R104). -/
theorem permute_ip_fp (v : Word64) : permute 64 standardTables.ip (permute 64 standardTables.fp v) = v :=
  permute_permute_of_inverse (n := 64) rfl rfl (by decide) v

/-- Settles O44: each table names at every position the place the other one sends it to. -/
theorem finalPermutationInvertsTheInitial : Obligations.FinalPermutationInvertsTheInitial :=
  ⟨permute_fp_ip, permute_ip_fp, by decide, by decide⟩

/-- PC-1 names every position that is no parity position exactly once (R107). -/
theorem pc1_perm :
    (standardTables.pc1c ++ standardTables.pc1d).Perm ((List.range' 1 64).filter fun p => p % 8 ≠ 0) := by decide

/-- PC-2 names no position twice (R109). -/
theorem pc2_nodup : standardTables.pc2.Nodup := by decide

/-- Settles O46: facts about one table of 48 entries. -/
theorem compressionOmitsTheseEight : Obligations.CompressionOmitsTheseEight :=
  ⟨pc2_nodup, rfl, by decide, by decide, by decide⟩

/-! ## The S-boxes -/

/-- R112: the row is the first bit then the last bit of the group. -/
theorem sboxRow_eq (g : BitVec 6) : sboxRow g = 2 * (g.getLsbD 5).toNat + (g.getLsbD 0).toNat := by
  revert g
  decide

/-- R112: the column is the four inner bits, the first one high. -/
theorem sboxColumn_eq (g : BitVec 6) :
    sboxColumn g = 8 * (g.getLsbD 4).toNat + 4 * (g.getLsbD 3).toNat + 2 * (g.getLsbD 2).toNat +
      (g.getLsbD 1).toNat := by
  revert g
  decide

/-- A group is given by its row and its column. -/
theorem toNat_group (g : BitVec 6) : g.toNat = 32 * (sboxRow g / 2) + 2 * sboxColumn g + sboxRow g % 2 := by
  revert g
  decide

/-- Within a row that lists 0 to 15 in some order, equal look-ups have equal columns. -/
theorem sbox_inj_on_row {box : List (List Nat)} {g h : BitVec 6}
    (perm : (box.getD (sboxRow g) []).Perm (List.range 16)) (row : sboxRow g = sboxRow h)
    (same : sbox box g = sbox box h) : g = h := by
  have length : (box.getD (sboxRow g) []).length = 16 := perm.length_eq
  have column (k : BitVec 6) : sboxColumn k < (box.getD (sboxRow g) []).length := length ▸ BitVec.isLt _
  have value (k : BitVec 6) : (box.getD (sboxRow g) []).getD (sboxColumn k) 0 < 16 :=
    List.mem_range.mp (perm.mem_iff.mp (getD_mem (column k) 0))
  have entries : (box.getD (sboxRow g) []).getD (sboxColumn g) 0 = (box.getD (sboxRow g) []).getD (sboxColumn h) 0 := by
    have numbers := congrArg BitVec.toNat same
    rwa [sbox, sbox, ← row, BitVec.toNat_ofNat, BitVec.toNat_ofNat, Nat.mod_eq_of_lt (value g),
      Nat.mod_eq_of_lt (value h)] at numbers
  have columns := getD_inj_of_nodup (perm.nodup_iff.mpr List.nodup_range) (column g) (column h) entries
  exact BitVec.eq_of_toNat_eq (by rw [toNat_group g, toNat_group h, row, columns])

/-- Each row of each printed S-box lists 0 to 15 in some order (R122). -/
theorem sboxRows_perm : ∀ box ∈ standardTables.sboxes, ∀ row ∈ box, row.Perm (List.range 16) := by decide

/-- Settles O47: the rows by evaluation, and then each look-up by its row. -/
theorem sboxRowsAreBijections : Obligations.SboxRowsAreBijections := by
  refine ⟨sboxRows_perm, fun box isBox g h row same => ?_⟩
  obtain ⟨-, -, -, -, -, -, -, ⟨-, boxes⟩, -⟩ := standardTables_shaped
  have rowInside : sboxRow g < box.length := (boxes box isBox).1 ▸ BitVec.isLt _
  exact sbox_inj_on_row (sboxRows_perm box isBox _ (getD_mem rowInside [])) row same

/-- R113: the `j`th nibble from the left of the substitution is group `j`'s output. -/
theorem substitute_nibble (boxes : List (List (List Nat))) (x : BitVec 48) {j : Nat} (inside : j < 8) :
    (substitute boxes x).extractLsb' (28 - 4 * j) 4 = sboxGroup boxes x j := by
  unfold substitute
  interval_cases j <;>
    simp (disch := omega) only [BitVec.extractLsb'_append_eq_of_le, BitVec.extractLsb'_append_eq_of_add_le] <;>
    exact BitVec.extractLsb'_eq_self

/-- Settles O48: the row and the column bit by bit, and the nibbles of the substitution one by one. -/
theorem substitutionWorksGroupByGroup : Obligations.SubstitutionWorksGroupByGroup := by
  refine ⟨fun box g entry is => ?_, fun boxes x j inside => substitute_nibble boxes x inside⟩
  have lookUp : sbox box g = BitVec.ofNat 4 entry := by rw [is, sbox, sboxRow_eq, sboxColumn_eq]
  refine ⟨lookUp, fun b inside => ?_⟩
  have bound : 3 - b < 4 := by omega
  rw [lookUp, BitVec.getMsbD, BitVec.getLsbD_ofNat]
  simp only [inside, bound, decide_true, Bool.true_and]

/-! ## Rotations -/

/-- R8: the bit at DES index `i` of a rotation comes from index `i + s`, counted around the word. -/
theorem getMsbD_rotl_mod {n : Nat} (x : BitVec n) {s : Nat} (small : s < n) {i : Nat} (inside : i < n) :
    (rotl x s).getMsbD i = x.getMsbD ((i + s) % n) := by
  rw [getMsbD_rotl x s small i]
  by_cases wraps : i + s < n
  · simp [inside, wraps, Nat.mod_eq_of_lt]
  · have around : (i + s) % n = i + s - n := by
      rw [Nat.mod_eq_sub_mod (by omega), Nat.mod_eq_of_lt (by omega)]
    simp [inside, wraps, around]

/-- A rotation by nothing changes nothing. -/
@[simp] theorem rotl_zero {n : Nat} (x : BitVec n) : rotl x 0 = x := by
  rw [rotl, Nat.sub_zero, BitVec.shiftLeft_zero, BitVec.ushiftRight_eq_zero (Nat.le_refl n), BitVec.or_zero]

/-- Two rotations are one rotation by the sum, counted around the word. -/
theorem rotl_rotl {n : Nat} (x : BitVec n) {a b : Nat} (ha : a < n) (hb : b < n) :
    rotl (rotl x a) b = rotl x ((a + b) % n) := by
  have positive : 0 < n := by omega
  refine BitVec.eq_of_getMsbD_eq fun i inside => ?_
  rw [getMsbD_rotl_mod _ hb inside, getMsbD_rotl_mod x ha (Nat.mod_lt _ positive),
    getMsbD_rotl_mod x (Nat.mod_lt _ positive) inside, Nat.mod_add_mod, Nat.add_mod_mod, Nat.add_assoc, Nat.add_comm b]

/-- A word that is all zeros or all ones is its own rotation. -/
theorem rotl_of_constant {n : Nat} {x : BitVec n} (constant : x = 0#n ∨ x = BitVec.allOnes n) {s : Nat}
    (small : s < n) : rotl x s = x := by
  refine BitVec.eq_of_getMsbD_eq fun i inside => ?_
  have source : (i + s) % n < n := Nat.mod_lt _ (by omega)
  rw [getMsbD_rotl_mod x small inside]
  rcases constant with rfl | rfl <;> simp [inside, source]

/-! ## The halves after some rounds -/

/-- How far the first `n` rounds of the key schedule rotate in all (R123). -/
def totalShift (t : Tables) (n : Nat) : Nat := (t.shifts.take n).sum

/-- Before the first round nothing is rotated. -/
theorem totalShift_zero (t : Tables) : totalShift t 0 = 0 := rfl

/-- Each round adds its own shift. -/
theorem totalShift_succ (t : Tables) (n : Nat) : totalShift t (n + 1) = totalShift t n + shiftOf t n := by
  rw [totalShift, List.take_add_one, List.sum_append, totalShift, shiftOf, List.getD_eq_getElem?_getD]
  cases t.shifts[n]? <;> simp

/-- R101: a round rotates by less than a half's width. -/
theorem shiftOf_lt {t : Tables} (shaped : t.Shaped) (n : Nat) : shiftOf t n < 28 := by
  obtain ⟨-, -, -, -, -, -, -, -, -, shifts⟩ := shaped
  by_cases inside : n < t.shifts.length
  · have := shifts _ (getD_mem inside 0)
    rw [shiftOf]
    omega
  · rw [shiftOf, List.getD_eq_default t.shifts 0 (by omega)]
    decide

/-- R125: the halves after `n` rounds are PC-1's halves, rotated by all the shifts so far at once. -/
theorem keyHalves_eq_rotl {t : Tables} (shaped : t.Shaped) (key : Word64) (n : Nat) :
    keyHalves t key n =
      (rotl (keyHalvesInitial t key).1 (totalShift t n % 28),
        rotl (keyHalvesInitial t key).2 (totalShift t n % 28)) := by
  induction n with
  | zero => simp [keyHalves_zero, totalShift_zero]
  | succ n ih =>
    have before : totalShift t n % 28 < 28 := Nat.mod_lt _ (by decide)
    have now : shiftOf t n < 28 := shiftOf_lt shaped n
    simp only [keyHalves_succ, ih, rotateHalves, rotl_rotl _ before now, totalShift_succ, Nat.mod_add_mod]

/-- Settles O49: sixteen rounds rotate once around a half. -/
theorem halvesReturnAfterSixteenRounds : Obligations.HalvesReturnAfterSixteenRounds := by
  refine ⟨by decide, fun key => ?_⟩
  have around : totalShift standardTables 16 % 28 = 0 := by decide
  rw [keyHalves_eq_rotl standardTables_shaped, around, rotl_zero, rotl_zero]
  rfl

end Sys2Proof.Machine

/-! Proofs of the statements of spec/40_tables.md and spec/41_key_schedule.md on where the bits of a round key come from
(O45, O50). -/

namespace Sys2Proof.Machine

/-! ## The key bit that a round-key bit copies -/

/-- Where a rotation of both halves by `s` takes its DES index `q` of `C ∥ D` from. -/
def turnedPosition (s q : Nat) : Nat := if q < 28 then (q + s) % 28 else 28 + (q - 28 + s) % 28

/-- A rotation stays inside `C ∥ D`. -/
theorem turnedPosition_lt (s q : Nat) : turnedPosition s q < 56 := by
  unfold turnedPosition
  split <;> omega

/-- A rotation takes no two bits from one place. -/
theorem turnedPosition_inj {s q q' : Nat} (hq : q < 56) (hq' : q' < 56)
    (same : turnedPosition s q = turnedPosition s q') : q = q' := by
  unfold turnedPosition at same
  split at same <;> split at same <;> omega

/-- The bits of two halves that were rotated alike. -/
theorem getMsbD_rotl_append_rotl (c d : KeyHalf) {s : Nat} (small : s < 28) {q : Nat} (inside : q < 56) :
    (rotl c s ++ rotl d s).getMsbD q = (c ++ d).getMsbD (turnedPosition s q) := by
  have turned (p : Nat) : (p + s) % 28 < 28 := Nat.mod_lt _ (by decide)
  by_cases left_ : q < 28
  · rw [turnedPosition, if_pos left_, BitVec.getMsbD_append, BitVec.getMsbD_append, if_neg (by omega),
      if_neg (Nat.not_le.mpr (turned q)), getMsbD_rotl_mod c small left_]
  · rw [turnedPosition, if_neg left_, BitVec.getMsbD_append, BitVec.getMsbD_append, if_pos (by omega),
      if_pos (by omega), getMsbD_rotl_mod d small (by omega), Nat.add_sub_cancel_left]

/-- PC-1's tables have 56 entries together. -/
theorem length_pc1 {t : Tables} (shaped : t.Shaped) : (t.pc1c ++ t.pc1d).length = 56 := by
  obtain ⟨-, -, ⟨lengthC, -⟩, ⟨lengthD, -⟩, -⟩ := shaped
  rw [List.length_append, lengthC, lengthD]

/-- PC-1's halves, one after the other, are PC-1's tables one after the other. -/
theorem getMsbD_keyHalvesInitial {t : Tables} (shaped : t.Shaped) (key : Word64) {q : Nat} (inside : q < 56) :
    ((keyHalvesInitial t key).1 ++ (keyHalvesInitial t key).2).getMsbD q =
      key.getMsbD ((t.pc1c ++ t.pc1d).getD q 0 - 1) := by
  obtain ⟨-, -, ⟨lengthC, -⟩, ⟨lengthD, -⟩, -⟩ := shaped
  rw [keyHalvesInitial, BitVec.getMsbD_append, getMsbD_permute _ _ lengthC, getMsbD_permute _ _ lengthD]
  split
  · next right_ =>
    have below : q - 28 < 28 := by omega
    rw [List.getD_append_right _ _ _ _ (by omega), lengthC]
    simp only [below, decide_true, Bool.true_and]
  · next left_ =>
    have below : q < 28 := by omega
    rw [List.getD_append _ _ _ _ (by omega)]
    simp only [below, decide_true, Bool.true_and]

/-- The key's DES index that bit `b` of round key `i` copies: back through PC-2, the rotations so far and PC-1. -/
def roundKeyPlace (t : Tables) (i b : Nat) : Nat :=
  (t.pc1c ++ t.pc1d).getD (turnedPosition (totalShift t (i + 1) % 28) (t.pc2.getD b 0 - 1)) 0 - 1

/-- Every round-key bit is a copy of one key bit, at a place that does not depend on the key (R134). -/
theorem getMsbD_roundKeyOf {t : Tables} (shaped : t.Shaped) (key : Word64) (i : Nat) {b : Nat} (inside : b < 48) :
    (roundKeyOf t key i).getMsbD b = key.getMsbD (roundKeyPlace t i b) := by
  have ⟨_, _, _, _, pc2, _⟩ := shaped
  have small : totalShift t (i + 1) % 28 < 28 := Nat.mod_lt _ (by decide)
  have source : t.pc2.getD b 0 - 1 < 56 := by
    have := entry_of_fits pc2 inside
    omega
  rw [roundKeyOf, compressHalves, getMsbD_permute _ _ pc2.1, keyHalves_eq_rotl shaped,
    getMsbD_rotl_append_rotl _ _ small source,
    getMsbD_keyHalvesInitial shaped key (turnedPosition_lt _ _), roundKeyPlace]
  simp only [inside, decide_true, Bool.true_and]

/-- The place is one of the key's, and no parity position, where PC-1 names no other. -/
theorem roundKeyPlace_not_parity {t : Tables} (shaped : t.Shaped)
    (pc1 : ∀ p ∈ t.pc1c ++ t.pc1d, 1 ≤ p ∧ p ≤ 64 ∧ p % 8 ≠ 0) (i b : Nat) :
    roundKeyPlace t i b < 64 ∧ roundKeyPlace t i b % 8 ≠ 7 := by
  have entry := pc1 _ (getD_mem (length_pc1 shaped ▸ turnedPosition_lt (totalShift t (i + 1) % 28)
    (t.pc2.getD b 0 - 1)) 0)
  rw [roundKeyPlace]
  omega

/-- No two bits of a round key copy one key bit, where neither PC-1 nor PC-2 names a position twice: the rotations
between them do not either. -/
theorem roundKeyPlace_inj {t : Tables} (shaped : t.Shaped) (pc1Nodup : (t.pc1c ++ t.pc1d).Nodup)
    (pc2Nodup : t.pc2.Nodup) {i b b' : Nat} (hb : b < 48) (hb' : b' < 48)
    (same : roundKeyPlace t i b = roundKeyPlace t i b') : b = b' := by
  have ⟨_, _, ⟨_, pc1c⟩, ⟨_, pc1d⟩, pc2, _⟩ := shaped
  have turned (q : Nat) : turnedPosition (totalShift t (i + 1) % 28) q < (t.pc1c ++ t.pc1d).length :=
    length_pc1 shaped ▸ turnedPosition_lt _ q
  have named (q : Nat) : 1 ≤ (t.pc1c ++ t.pc1d).getD (turnedPosition (totalShift t (i + 1) % 28) q) 0 :=
    (List.mem_append.mp (getD_mem (turned q) 0)).elim (fun inC => (pc1c _ inC).1) (fun inD => (pc1d _ inD).1)
  have positions : t.pc2.getD b 0 - 1 = t.pc2.getD b' 0 - 1 := by
    have := entry_of_fits pc2 hb
    have := entry_of_fits pc2 hb'
    refine turnedPosition_inj (by omega) (by omega) (getD_inj_of_nodup pc1Nodup (turned _) (turned _) (d := 0) ?_)
    exact Nat.sub_one_cancel (named _) (named _) same
  refine getD_inj_of_nodup pc2Nodup (pc2.1 ▸ hb) (pc2.1 ▸ hb') (d := 0) ?_
  exact Nat.sub_one_cancel (entry_of_fits pc2 hb).1 (entry_of_fits pc2 hb').1 positions

/-- The entries of the printed PC-1 (R107). -/
theorem pc1_entry : ∀ p ∈ standardTables.pc1c ++ standardTables.pc1d, 1 ≤ p ∧ p ≤ 64 ∧ p % 8 ≠ 0 := by decide

/-- The printed PC-1 names no position twice (R107). -/
theorem pc1_nodup : (standardTables.pc1c ++ standardTables.pc1d).Nodup := by decide

/-- The places of the printed tables. -/
theorem standardPlace_not_parity (i b : Nat) :
    roundKeyPlace standardTables i b < 64 ∧ roundKeyPlace standardTables i b % 8 ≠ 7 :=
  roundKeyPlace_not_parity standardTables_shaped pc1_entry i b

/-! ## What follows for the round keys -/

/-- Keys that differ in parity bits only have the same round keys. -/
theorem roundKeyOf_congr {key key' : Word64} (same : ∀ i < 64, i % 8 ≠ 7 → key.getMsbD i = key'.getMsbD i) (i : Nat) :
    roundKeyOf standardTables key i = roundKeyOf standardTables key' i := by
  refine BitVec.eq_of_getMsbD_eq fun b inside => ?_
  obtain ⟨bound, noParity⟩ := standardPlace_not_parity i b
  rw [getMsbD_roundKeyOf standardTables_shaped key i inside, getMsbD_roundKeyOf standardTables_shaped key' i inside,
    same _ bound noParity]

/-- Settles O45: the positions by evaluation, and the schedules entry by entry. -/
theorem parityBitsReachNoRoundKey : Obligations.ParityBitsReachNoRoundKey :=
  ⟨pc1_perm, fun _ _ same => roundKeyFile_ext fun j => by
    rw [rkEntry_deriveRoundKeys, rkEntry_deriveRoundKeys, roundKeyOf_congr same]⟩

/-- The complemented key has the complemented round keys. -/
theorem roundKeyOf_not (key : Word64) (i : Nat) :
    roundKeyOf standardTables (~~~key) i = ~~~roundKeyOf standardTables key i := by
  refine BitVec.eq_of_getMsbD_eq fun b inside => ?_
  have bound := (standardPlace_not_parity i b).1
  simp only [getMsbD_roundKeyOf standardTables_shaped _ i inside, BitVec.getMsbD_not, bound, inside, decide_true,
    Bool.true_and]

/-- The key of zeros has round keys of zeros. -/
theorem roundKeyOf_zero (i : Nat) : roundKeyOf standardTables 0#64 i = 0#48 := by
  refine BitVec.eq_of_getMsbD_eq fun b inside => ?_
  rw [getMsbD_roundKeyOf standardTables_shaped _ i inside, BitVec.getMsbD_zero, BitVec.getMsbD_zero]

/-- A key whose halves are each all zeros or all ones has one round key, sixteen times. -/
theorem roundKeyOf_of_constant_halves {t : Tables} (shaped : t.Shaped) {key : Word64} {c d : KeyHalf}
    (halves : keyHalvesInitial t key = (c, d)) (hc : c = 0#28 ∨ c = BitVec.allOnes 28)
    (hd : d = 0#28 ∨ d = BitVec.allOnes 28) (i : Nat) : roundKeyOf t key i = compressHalves t (c, d) := by
  have small : totalShift t (i + 1) % 28 < 28 := Nat.mod_lt _ (by decide)
  rw [roundKeyOf, keyHalves_eq_rotl shaped, halves, rotl_of_constant hc small, rotl_of_constant hd small]

/-- The halves of the four weak keys are all zeros or all ones. -/
theorem weakKeys_constant_halves :
    ∀ key ∈ [0x0101010101010101#64, 0xFEFEFEFEFEFEFEFE#64, 0xE0E0E0E0F1F1F1F1#64, 0x1F1F1F1F0E0E0E0E#64],
      ∃ c d : KeyHalf, keyHalvesInitial standardTables key = (c, d) ∧
        (c = 0#28 ∨ c = BitVec.allOnes 28) ∧ (d = 0#28 ∨ d = BitVec.allOnes 28) := by
  simp only [List.forall_mem_cons]
  exact ⟨⟨0x0000000#28, 0x0000000#28, by decide, .inl rfl, .inl rfl⟩,
    ⟨0xFFFFFFF#28, 0xFFFFFFF#28, by decide, .inr rfl, .inr rfl⟩,
    ⟨0xFFFFFFF#28, 0x0000000#28, by decide, .inr rfl, .inl rfl⟩,
    ⟨0x0000000#28, 0xFFFFFFF#28, by decide, .inl rfl, .inr rfl⟩, List.forall_mem_nil _⟩

/-- Settles O50: the places are `roundKeyPlace`'s, and each consequence is read off them; the weak keys by their
halves. -/
theorem roundKeysCopyKeyBits : Obligations.RoundKeysCopyKeyBits := by
  refine ⟨⟨roundKeyPlace standardTables, fun i _ => ⟨fun b inside => ?_, fun b hb b' hb' =>
      roundKeyPlace_inj standardTables_shaped pc1_nodup pc2_nodup hb hb'⟩⟩,
    fun i _ => ⟨roundKeyOf_zero i, ?_⟩, fun key parity mask i _ => roundKeyOf_congr (fun q bound noParity => ?_) i,
    fun key i _ => roundKeyOf_not key i, fun key weak i _ i' _ => ?_⟩
  · obtain ⟨bound, noParity⟩ := standardPlace_not_parity i b
    exact ⟨bound, noParity, fun key => getMsbD_roundKeyOf standardTables_shaped key i inside⟩
  · have ones : (0xFFFFFFFFFFFFFFFF#64) = ~~~0#64 := by decide
    rw [ones, roundKeyOf_not, roundKeyOf_zero]
    decide
  · rw [BitVec.getMsbD_xor, mask q bound noParity, Bool.xor_false]
  · obtain ⟨c, d, halves, hc, hd⟩ := weakKeys_constant_halves key weak
    rw [roundKeyOf_of_constant_halves standardTables_shaped halves hc hd i,
      roundKeyOf_of_constant_halves standardTables_shaped halves hc hd i']

end Sys2Proof.Machine

/-! Proofs of the statements of spec/42_feistel.md on the transform as a function: that reversed keys undo it (O51), and
complementation and equal keys (O52). -/

namespace Sys2Proof.Machine

/-! ## Reversed keys undo the rounds -/

/-- A round with the same key undoes a round whose halves were exchanged after it (R145). -/
theorem feistelRound_swap_feistelRound (t : Tables) (lr : Half × Half) (k : RoundKey) :
    feistelRound t (feistelRound t lr k).swap k = lr.swap := by
  simp [feistelRound, Prod.swap]

/-- The rounds in reverse order undo the rounds whose halves were exchanged after the last one. -/
theorem feistelRounds_swap_feistelRounds (t : Tables) (lr : Half × Half) (ks : List RoundKey) :
    feistelRounds t (feistelRounds t lr ks).swap ks.reverse = lr.swap := by
  induction ks generalizing lr with
  | nil => rfl
  | cons k ks ih =>
    rw [List.reverse_cons, feistelRounds_append, feistelRounds_cons t lr, ih, feistelRounds_cons, feistelRounds_nil,
      feistelRound_swap_feistelRound]

/-- IP of an output block: the halves the rounds left, exchanged (R140, R146). -/
theorem initialHalves_outputBlock (lr : Half × Half) :
    initialHalves standardTables (outputBlock standardTables lr) = lr.swap := by
  rw [initialHalves, outputBlock, permute_ip_fp, BitVec.extractLsb'_append_eq_of_le (by decide),
    BitVec.extractLsb'_append_eq_of_add_le (by decide), BitVec.extractLsb'_eq_self, BitVec.extractLsb'_eq_self]
  rfl

/-- The output block of a block's own halves, exchanged, is the block. -/
theorem outputBlock_swap_initialHalves (block : Word64) :
    outputBlock standardTables (initialHalves standardTables block).swap = block := by
  have whole (v : Word64) : v.extractLsb' 32 32 ++ v.extractLsb' 0 32 = v := by
    rw [BitVec.extractLsb'_append_extractLsb'_eq_extractLsb' (by decide)]
    exact BitVec.extractLsb'_eq_self
  rw [outputBlock, initialHalves, Prod.fst_swap, Prod.snd_swap, whole, permute_fp_ip]

/-- The transform with the round keys reversed undoes the transform (R148). -/
theorem transform_reverse_transform (block : Word64) (ks : List RoundKey) :
    transform standardTables (transform standardTables block ks) ks.reverse = block := by
  rw [transform, transform, initialHalves_outputBlock, feistelRounds_swap_feistelRounds,
    outputBlock_swap_initialHalves]

/-- Settles O51: the transform undoes itself under any list of keys and its reverse. -/
theorem reversedKeysUndoTheTransform : Obligations.ReversedKeysUndoTheTransform :=
  fun block keys => transform_reverse_transform block keys.toList

/-! ## Complementation -/

/-- A field inside a word commutes with the complement. -/
theorem extractLsb'_not {n start len : Nat} (inside : start + len ≤ n) (v : BitVec n) :
    (~~~v).extractLsb' start len = ~~~v.extractLsb' start len := by
  ext i bound
  have low : start + i < n := by omega
  simp [low]

/-- Both halves complemented. -/
def complementHalves (lr : Half × Half) : Half × Half := (~~~lr.1, ~~~lr.2)

section
variable {t : Tables} (shaped : t.Shaped)
include shaped

/-- The complements of the half and of the key cancel before the S-boxes (R141 to R144). -/
theorem roundFunction_not (r : Half) (k : RoundKey) : roundFunction t (~~~r) (~~~k) = roundFunction t r k := by
  obtain ⟨-, -, -, -, -, e, -⟩ := shaped
  rw [roundFunction, permute_not e, ← BitVec.not_xor_left, ← BitVec.not_xor_right, BitVec.not_not, roundFunction]

/-- Complemented halves and keys give complemented halves, round by round. -/
theorem feistelRounds_not (lr : Half × Half) (ks : List RoundKey) :
    feistelRounds t (complementHalves lr) (ks.map fun k => ~~~k) = complementHalves (feistelRounds t lr ks) := by
  induction ks generalizing lr with
  | nil => rfl
  | cons k ks ih =>
    have round : feistelRound t (complementHalves lr) (~~~k) = complementHalves (feistelRound t lr k) := by
      simp [feistelRound, complementHalves, roundFunction_not shaped, BitVec.not_xor_right]
    rw [List.map_cons, feistelRounds_cons, round, ih, feistelRounds_cons]

/-- The complemented block has the complemented halves. -/
theorem initialHalves_not (block : Word64) :
    initialHalves t (~~~block) = complementHalves (initialHalves t block) := by
  obtain ⟨ip, -⟩ := shaped
  rw [initialHalves, permute_not ip, extractLsb'_not (by decide), extractLsb'_not (by decide)]
  rfl

/-- Complemented halves have the complemented output block. -/
theorem outputBlock_not (lr : Half × Half) : outputBlock t (complementHalves lr) = ~~~outputBlock t lr := by
  obtain ⟨-, fp, -⟩ := shaped
  rw [outputBlock, complementHalves, ← BitVec.not_append, permute_not fp, outputBlock]

/-- Complemented block and round keys give the complemented result (R149). -/
theorem transform_not (block : Word64) (ks : List RoundKey) :
    transform t (~~~block) (ks.map fun k => ~~~k) = ~~~transform t block ks := by
  rw [transform, initialHalves_not shaped, feistelRounds_not shaped, outputBlock_not shaped, transform]

end

/-- The complemented key has the complemented schedule. -/
theorem toList_deriveRoundKeys_not (key : Word64) :
    (deriveRoundKeys standardTables (~~~key)).toList =
      (deriveRoundKeys standardTables key).toList.map fun k => ~~~k := by
  rw [← Vector.toList_map]
  congr 1
  ext1 i inside
  rw [getElem_deriveRoundKeys, Vector.getElem_map, getElem_deriveRoundKeys, roundKeyOf_not]

/-! ## Equal keys -/

/-- Sixteen equal round keys read the same in both orders. -/
theorem reverse_toList_of_equal {keys : RoundKeyFile} (equal : ∀ i j : BitVec 4, rkEntry keys i = rkEntry keys j) :
    keys.toList.reverse = keys.toList := by
  have constant : keys = Vector.replicate 16 (rkEntry keys 0#4) :=
    roundKeyFile_ext fun j => (equal j 0#4).trans (Vector.getElem_replicate _).symm
  rw [constant, Vector.toList_replicate, List.reverse_replicate]

/-- Settles O52: complementation round by round, and under equal keys the reversed order is the order. -/
theorem transformComplementsAndInverts : Obligations.TransformComplementsAndInverts := by
  refine ⟨fun block keys => transform_not standardTables_shaped block keys.toList, fun block key => ?_,
    fun block keys equal => ?_⟩
  · rw [toList_deriveRoundKeys_not, transform_not standardTables_shaped]
  · have undone := transform_reverse_transform block keys.toList
    rw [reverse_toList_of_equal equal] at undone ⊢
    exact ⟨rfl, undone⟩

end Sys2Proof.Machine
